-- ==== Sys2Proof/Word.lean ====
section
/-! DEFINITION. The word types of the 80960CA (`00_scope.md` R8, R11). -/

namespace Sys2Proof

/-- A 32-bit word: registers, addresses, instruction words. -/
abbrev Word := BitVec 32

/-- One byte of memory. -/
abbrev Byte := BitVec 8

/-- The number of a general register: 0 to 15 are r0 to r15, 16 to 31 are g0 to g15
(`30_encoding.md` R166; PRESUMED, log 7). -/
abbrev RegNum := BitVec 5

end Sys2Proof
end

