-- ==== Sys2Proof/Machine/Flags.lean ====
section
/-! DEFINITION. The values and flags that instructions compute, on words alone
(`41_arithmetic.md`, `42_logical_bit.md`, `43_compare_branch.md`, `10_state.md` R41, R42). -/

namespace Sys2Proof.Machine

/-! Condition codes. -/

/-- The result of a comparison (`43_compare_branch.md` R340). -/
def compareCode (less equal : Bool) : BitVec 3 :=
  if less then 4 else if equal then 2 else 1

/-- Ordinal comparison of src1 with src2 (R340, R341). -/
def compareOrdinal (x y : Word) : BitVec 3 := compareCode (decide (x.toNat < y.toNat)) (x == y)

/-- Integer comparison of src1 with src2 (R340, R342). -/
def compareInteger (x y : Word) : BitVec 3 := compareCode (decide (x.toInt < y.toInt)) (x == y)

/-- The condition test of `b`, `fault` and `test` instructions (`10_state.md` R42). -/
def conditionHolds (mask cc : BitVec 3) : Bool :=
  if mask = 0 then cc == 0 else (mask &&& cc) != 0

/-- 010b for true, 000b for false (`10_state.md` R41). -/
def truthCode (b : Bool) : BitVec 3 := if b then 2 else 0

/-- AC.cc after `addc` and `subc`: bit 2 is 0, bit 1 the carry, bit 0 the overflow (R268, R271). -/
def carryCode (carry overflow : Bool) : BitVec 3 :=
  (0#1 ++ BitVec.ofBool carry ++ BitVec.ofBool overflow : BitVec 3)

/-! Integer results: the exact result, narrowed. -/

/-- An exact result that a 32-bit integer can hold (`41_arithmetic.md` R261). -/
def fitsInteger (r : Int) : Bool := decide (-(2 ^ 31) ≤ r) && decide (r ≤ 2 ^ 31 - 1)

/-- The low 32 bits of an exact result, and whether it overflows (R262). -/
def narrow (r : Int) : Word × Bool := (BitVec.ofInt 32 r, !fitsInteger r)

/-- `addi`: src2 + src1 (R267). -/
def addInteger (x y : Word) : Word × Bool := narrow (y.toInt + x.toInt)

/-- `subi`: src2 - src1 (R270). -/
def subInteger (x y : Word) : Word × Bool := narrow (y.toInt - x.toInt)

/-- `muli`: src2 * src1 (R273). -/
def mulInteger (x y : Word) : Word × Bool := narrow (y.toInt * x.toInt)

/-- `divi`: src2 / src1 rounded toward zero, src1 not 0 (R276, R264). -/
def divInteger (x y : Word) : Word × Bool := narrow (Int.tdiv y.toInt x.toInt)

/-- `remi`: the remainder with the sign of src2; overflow is signalled where the quotient does not
fit (R278, D27; UNVERIFIED, unsafe: log 31). -/
def remInteger (x y : Word) : Word × Bool :=
  (BitVec.ofInt 32 (Int.tmod y.toInt x.toInt), !fitsInteger (Int.tdiv y.toInt x.toInt))

/-- `modi`: the remainder with the sign of src1 (R279). -/
def modInteger (x y : Word) : Word :=
  let r := Int.tmod y.toInt x.toInt
  BitVec.ofInt 32 (if y.toInt * x.toInt < 0 ∧ r ≠ 0 then r + x.toInt else r)

/-- `divo`: the quotient of ordinals, src1 not 0 (R275). -/
def divOrdinal (x y : Word) : Word := BitVec.ofNat 32 (y.toNat / x.toNat)

/-- `remo`: the remainder of ordinals, src1 not 0 (R277). -/
def remOrdinal (x y : Word) : Word := BitVec.ofNat 32 (y.toNat % x.toNat)

/-- The overflow bit of `addc` (R268): the exact signed sum does not fit. -/
def addOverflow (x y : Word) (cin : Bool) : Bool :=
  !fitsInteger (y.toInt + x.toInt + cin.toNat)

/-- The sum and the carry of `addc` (R268). -/
def addCarry (x y : Word) (cin : Bool) : Word × Bool :=
  (BitVec.ofNat 32 (y.toNat + x.toNat + cin.toNat),
   decide (2 ^ 32 ≤ y.toNat + x.toNat + cin.toNat))

/-- The overflow bit of `subc` (R271). -/
def subOverflow (x y : Word) (cin : Bool) : Bool :=
  !fitsInteger (y.toInt - x.toInt - 1 + cin.toNat)

/-- The difference and the carry (not borrow) of `subc`: src2 + not(src1) + carry in (R271). -/
def subCarry (x y : Word) (cin : Bool) : Word × Bool := addCarry (~~~x) y cin

/-- The 64-bit ordinal with low word `lo` and high word `hi` (R265). -/
def longOrdinal (lo hi : Word) : Nat := hi.toNat * 2 ^ 32 + lo.toNat

/-! Shifts. -/

/-- The shift count: anything above 32 counts as 32 (R281, D28). -/
def shiftCount (len : Word) : Nat := min len.toNat 32

/-- `shlo` (R282). -/
def shiftLeftOrdinal (len src : Word) : Word := if len.toNat < 32 then src <<< len.toNat else 0

/-- `shro` (R283). -/
def shiftRightOrdinal (len src : Word) : Word := if len.toNat < 32 then src >>> len.toNat else 0

/-- The loop of `shli`: shift while the sign bit keeps its value; the count that is left (R284). -/
def shiftLeftLoop : Nat → Word → Word × Nat
  | 0, w => (w, 0)
  | i + 1, w => if w.getLsbD 31 = w.getLsbD 30 then shiftLeftLoop i (w <<< 1) else (w, i + 1)

/-- `shli`: the value, and whether it overflows (R284). -/
def shiftLeftInteger (len src : Word) : Word × Bool :=
  let r := shiftLeftLoop (shiftCount len) src
  (r.1, r.2 != 0)

/-- `shri`: the arithmetic shift, rounding down (R285). -/
def shiftRightInteger (len src : Word) : Word := BitVec.ofInt 32 (src.toInt / 2 ^ shiftCount len)

/-- `shrdi`: the arithmetic shift, rounding toward zero (R286). -/
def shiftRightDividing (len src : Word) : Word :=
  let t := src.toInt / 2 ^ shiftCount len
  BitVec.ofInt 32 (if src.toInt < 0 ∧ src.toInt % 2 ^ shiftCount len ≠ 0 then t + 1 else t)

/-- `rotate` left by len mod 32 (R288). -/
def rotateLeft (len src : Word) : Word :=
  (src <<< (len.toNat % 32)) ||| (src >>> (32 - len.toNat % 32))

/-- `eshro`: the low word of the 64-bit source shifted right by src1 mod 32 (R289). -/
def shiftRightExtended (len lo hi : Word) : Word :=
  BitVec.ofNat 32 (longOrdinal lo hi / 2 ^ (len.toNat % 32))

/-! Bits and bit fields. -/

/-- The word with only bit (bitpos mod 32) set (`42_logical_bit.md` R315). -/
def bitMask (bitpos : Word) : Word := 1#32 <<< (bitpos.toNat % 32)

/-- Bit (bitpos mod 32) of a word (R315). -/
def bitAt (bitpos src : Word) : Bool := src.getLsbD (bitpos.toNat % 32)

/-- `alterbit` (R319): set the bit if condition-code bit 1 is 1, else clear it. -/
def alterBit (cc : BitVec 3) (bitpos src : Word) : Word :=
  if cc.getLsbD 1 then src ||| bitMask bitpos else src &&& ~~~bitMask bitpos

/-- The largest bit number below n whose bit is set. -/
def topBitBelow (w : Word) : Nat → Option Nat
  | 0 => none
  | n + 1 => if w.getLsbD n then some n else topBitBelow w n

/-- `scanbit`: the destination and AC.cc (R321). -/
def scanBit (src : Word) : Word × BitVec 3 :=
  match topBitBelow src 32 with
  | some k => (BitVec.ofNat 32 k, truthCode true)
  | none => (0xFFFFFFFF, truthCode false)

/-- `spanbit`: the most significant clear bit (R322). -/
def spanBit (src : Word) : Word × BitVec 3 := scanBit (~~~src)

/-- `extract` (R325): `len mod 32` bits from `bitpos mod 32` on. -/
def extractField (bitpos len v : Word) : Word :=
  (v >>> (bitpos.toNat % 32)) &&& ((1#32 <<< (len.toNat % 32)) - 1)

/-- `scanbyte` (R328): some byte of the two words is the same. -/
def someByteEqual (x y : Word) : Bool :=
  x.extractLsb' 0 8 == y.extractLsb' 0 8 || x.extractLsb' 8 8 == y.extractLsb' 8 8 ||
    x.extractLsb' 16 8 == y.extractLsb' 16 8 || x.extractLsb' 24 8 == y.extractLsb' 24 8

/-- A byte integer can hold the value (`40_data_movement.md` R234). -/
def fitsByte (v : Word) : Bool := decide (-128 ≤ v.toInt) && decide (v.toInt ≤ 127)

/-- A short integer can hold the value (`40_data_movement.md` R235). -/
def fitsShort (v : Word) : Bool := decide (-32768 ≤ v.toInt) && decide (v.toInt ≤ 32767)

end Sys2Proof.Machine
end

