-- ==== Sys2Proof/Config.lean ====
section
/-! DEFINITION. What the manual leaves to the implementation or leaves undefined
(`92_eei_decisions.md`, table of parameters; `93_implementation_defined.md`). A constant without a
body is a free value: no proof can see what it is (logs 6, 8, 11, 20). -/

namespace Sys2Proof

/-- The n-th free value that a run draws: `undefined(32)` of `00_scope.md` R12. Safe: nothing
constrains it (log 6). -/
opaque Config.freeWord : Nat → Word

/-- One free bit, taken from the n-th free value (log 6). -/
def Config.freeBit (n : Nat) : Bool := (Config.freeWord n).getLsbD 0

/-- BPCON_LAYOUT, the bit position of BPCON.e0 (`10_state.md` R62, D16). Safe (log 8). -/
opaque Config.bpconEnable0 : Fin 32
/-- BPCON_LAYOUT, the bit position of BPCON.e1 (`10_state.md` R62, D16). Safe (log 8). -/
opaque Config.bpconEnable1 : Fin 32
/-- BPCON_LAYOUT, the lowest bit of the field BPCON.m0 (`10_state.md` R62, D16). Safe (log 8). -/
opaque Config.bpconMode0 : Fin 31
/-- BPCON_LAYOUT, the lowest bit of the field BPCON.m1 (`10_state.md` R62, D16). Safe (log 8). -/
opaque Config.bpconMode1 : Fin 31

/-- DMA_CHAINING_BIT, the bit of the `sdma` control word that selects data chaining
(`47_dma.md` R482). Safe (log 11). -/
opaque Config.dmaChainingBit : Fin 32

/-- DMA_CHAINING_BIT, the value of that bit that selects data chaining (`47_dma.md` R482). Safe
(log 11). -/
opaque Config.dmaChainingValue : Bool

/-- DMA_RAM_BASE, the start of the DMA working blocks in internal data RAM (`20_memory.md` R141,
G9). PRESUMED, unsafe (log 11). -/
def Config.dmaRamBase : Word := 0x40

/-- PROT_LENGTH_SUBTYPE, the subtype byte of PROTECTION.LENGTH (`61_faults.md` R538, C12).
DEDUCED, unsafe (log 9). -/
def Config.protLengthSubtype : BitVec 8 := 0x02

/-- What the Process Control Block at an address supplies at a reinitialization
(`70_reset_and_hazards.md` R601). Its layout is not in the source, so the k-th of its words is a
free value of the address and of the number of free values drawn before. Safe (log 20). -/
opaque Config.prcbWord : Word → Nat → Nat → Word

end Sys2Proof
end

