-- ==== Sys2Proof/Machine/State.lean ====
section
/-! DEFINITION. The state of the machine as plain data: every piece of state `10_state.md` R20 to R90
names, the hidden state of `60_exceptions.md` to `70_reset_and_hazards.md`, and four fields of the
model's own (`draws`, `boot`, `turns` and `intc.events`). -/

namespace Sys2Proof.Machine

/-- Memory: the bytes that are not 0, by rising address. A byte that is not listed reads as 0
(DESIGN CHOICE, unsafe: log 4). -/
abbrev Memory := List Host.Cell

/-- A local register set in the register cache with the address of its frame (`10_state.md` R73). -/
structure SavedSet where
  frame : Word
  words : Vector Word 16
deriving DecidableEq, Repr

/-- The pointers cached at initialization (`10_state.md` R70). -/
structure Tables where
  prcbBase : Word
  sptBase : Word
  intTableBase : Word
  intStackBase : Word
  faultTableBase : Word
  ctrlTableBase : Word
deriving DecidableEq, Repr

/-- The configuration words of the PRCB that stay in force (`10_state.md` R71). -/
structure PrcbConfig where
  /-- FAULT_ON_UNALIGNED (`20_memory.md` R108, D8) -/
  faultOnUnaligned : Bool
  /-- REGCACHE_SETS (R72, D7) -/
  regcacheSets : Nat
deriving DecidableEq, Repr

/-- The parameters of an initialization (`70_reset_and_hazards.md` R601): what the Initialization Boot
Record and the PRCB supply. -/
structure Boot where
  /-- FIRST_IP (D1) -/
  firstIp : Word
  /-- PRCB_BASE (D2) and the pointers of the PRCB (D6) -/
  tables : Tables
  /-- FAULT_ON_UNALIGNED (D8) and REGCACHE_SETS (D7) -/
  config : PrcbConfig
  /-- INIT_AC (D5) -/
  initAc : Word
  /-- ICACHE_ENABLED (D9) -/
  icacheEnabled : Bool
deriving DecidableEq, Repr

/-- The control registers but for TC (`10_state.md` R59 to R66). -/
structure ControlRegs where
  ipb0 : Word
  ipb1 : Word
  dab0 : Word
  dab1 : Word
  imap0 : Word
  imap1 : Word
  imap2 : Word
  icon : Word
  mcon : Vector Word 16
  bpcon : Word
  bcon : Word
deriving DecidableEq, Repr

/-- What the agents outside the core do before a step and, in memory, between the bus requests of its
instruction (`62_tracing.md` R585; `00_scope.md` R15; `47_dma.md` R481). Pin levels are as seen on the
pins: active low. -/
structure ExternalEvent where
  /-- levels of XINT7 to XINT0 -/
  xint : BitVec 8
  /-- level of NMI -/
  nmi : Bool
  /-- DMA channels that request an interrupt -/
  dmaRequest : BitVec 4
  /-- DMA channels whose transfer has ended -/
  dmaStopped : BitVec 4
  /-- a change of DMAC by the DMA controller -/
  dmac : Option Word
  /-- changes of the working status of DMA channels -/
  dmaStatus : List (Fin 4 × Vector Word 8)
  /-- bytes written by the DMA controller or another bus master -/
  writes : List Host.Cell
  /-- the bytes that they write between the bus requests of the instruction (`20_memory.md` R122,
  R124; log 40) -/
  during : List (List Host.Cell) := []
  /-- RESET is asserted and deasserted with power on (`70_reset_and_hazards.md` R600) -/
  reset : Bool := false
deriving DecidableEq, Repr

/-- The interrupt controller (`10_state.md` R34, R35, R77; `60_exceptions.md` R500). -/
structure IntCtl where
  /-- sf0, IPND -/
  ipnd : Word
  /-- sf1, IMSK -/
  imsk : Word
  /-- the software-priority register -/
  swPriority : BitVec 5
  /-- `nmi_pending` -/
  nmiPending : Bool
  /-- `nmi_in_service`, with the call depth of the NMI handler's frame (R512, D39) -/
  nmiDepth : Option Int
  /-- levels of XINT7 to XINT0 as last sampled -/
  xint : BitVec 8
  /-- level of NMI as last sampled -/
  nmiPin : Bool
  /-- the MODEL's own field: the inputs still to come, the next one first (log 12) -/
  events : List ExternalEvent
deriving DecidableEq, Repr

/-- The DMA controller as the core sees it (`10_state.md` R36; `47_dma.md` R481). -/
structure DmaState where
  /-- sf2, DMAC -/
  dmac : Word
  control : Vector Word 4
  status : Vector (Vector Word 8) 4
  started : Vector Bool 4
deriving DecidableEq, Repr

/-- The modes of the instruction cache (`46_atomic_procmgmt.md` R468). -/
inductive ICacheMode where
  | disabled
  | normal1k
  | locked1k
  | locked512
deriving DecidableEq, Repr

/-- The locked part of the instruction cache: the instruction words copied from `base` on
(`20_memory.md` R134). -/
structure LockedBlock where
  base : Word
  words : List Word
deriving DecidableEq, Repr

/-- The instruction cache as a program can see it (`10_state.md` R75; `20_memory.md` R131 to R134). -/
structure ICache where
  mode : ICacheMode
  /-- memory as of the last consistency point (log 14) -/
  image : Memory
  locked : Option LockedBlock
  /-- instructions come from the locked copy (`60_exceptions.md` R515) -/
  fetchingLocked : Bool
deriving DecidableEq, Repr

/-- The window after `modtc` (`70_reset_and_hazards.md` R622): instructions left, and the old TC. -/
structure TcDelay where
  left : Nat
  old : Word
deriving DecidableEq, Repr

/-- The window after a `modpc` that changes PC.te (R622): instructions left, and the old te. -/
structure TeDelay where
  left : Nat
  old : Bool
deriving DecidableEq, Repr

/-- The hidden state of tracing (`62_tracing.md` R573; `70_reset_and_hazards.md` R622). -/
structure TraceState where
  traceIp : Word
  tcDelay : TcDelay
  teDelay : TeDelay
deriving DecidableEq, Repr

/-- The 80960CA. -/
structure State where
  /-- r0 to r15 of the current frame (`10_state.md` R20, R25) -/
  locals : Vector Word 16
  /-- g0 to g15 -/
  globals : Vector Word 16
  /-- IP, the address of the instruction (R37) -/
  ip : Word
  /-- AC, arithmetic controls (R40) -/
  ac : Word
  /-- PC, process controls (R47) -/
  pctl : Word
  /-- TC, trace controls (R55) -/
  tc : Word
  /-- memory with the internal data RAM (R85; `20_memory.md` R140) -/
  mem : Memory
  /-- the register cache, oldest set first (R73; `44_call_return.md` R402) -/
  rcache : List SavedSet
  /-- call depth, for the NMI handler's frame (`60_exceptions.md` R512, D39) -/
  depth : Int
  tables : Tables
  config : PrcbConfig
  ctrl : ControlRegs
  intc : IntCtl
  dma : DmaState
  icache : ICache
  trace : TraceState
  /-- the MODEL's own field: how many free values have been drawn (log 6) -/
  draws : Nat
  /-- the MODEL's own field: the parameters that a hardware reset takes (R601; log 1) -/
  boot : Boot
  /-- the MODEL's own field: what other agents still write between the bus requests of the instruction
  under way, the next first (`20_memory.md` R122, R124; log 40) -/
  turns : List (List Host.Cell)
deriving DecidableEq, Repr

/-- Behaviour that the manual calls undefined or unpredictable and for which it gives no effect; the
spec's treatment is to define no successor (log 23). All are safe: the model stops where hardware
goes on. -/
inductive Fault where
  /-- Raised by a load or store: unaligned access to a big-endian region with FAULT_ON_UNALIGNED
  clear, "can only cause a fault" (`20_memory.md` R110, U3). Safe. -/
  | unalignedBigEndian
  /-- Raised by `modpc` when it would change a reserved bit of PC, "can lead to unpredictable
  behavior" (`46_atomic_procmgmt.md` R463, D34). Safe. -/
  | reservedProcessControls
  /-- Raised by the delivery test when ICON.im is 11b, "not defined" (`10_state.md` R64, U14).
  Safe. -/
  | undefinedInterruptMode
deriving DecidableEq, Repr

/-- What the model gives no meaning to (log 23). All are safe: the model stops where hardware
goes on. -/
inductive Refusal where
  /-- An instruction without a meaning yet. Raised by no instruction. Safe. -/
  | notModelled (mnemonic : String)
  /-- Raised by `sdma` on a channel that is running: the DMA chapter is not in the source
  (`47_dma.md` R482, U18). Safe. -/
  | dmaChannelRunning
  /-- Raised by `sysctl` load-and-lock of an address that is not a multiple of 16 or lies in
  internal data RAM (`46_atomic_procmgmt.md` R468, U17). Safe. -/
  | lockAddress
  /-- Raised by a fault entry whose fault-table entry names a procedure number above 259
  (`61_faults.md` R534, U21). Safe. -/
  | faultProcedureNumber
  /-- Raised by a step with a system-procedure, interrupt, fault or control table that is not aligned
  (`20_memory.md` R111, U5; `61_faults.md` R558). Safe. -/
  | misalignedTable
deriving DecidableEq, Repr

/-- The faults of the 80960CA that the model raises (`61_faults.md` R538). They are taken, not
stops: the step after one is the fault entry. -/
inductive FaultCode where
  /-- TRACE, with the subtype bits -/
  | trace (subtype : BitVec 8)
  | invalidOpcode
  | unimplemented
  | unaligned
  | invalidOperand
  | integerOverflow
  | zeroDivide
  | constraintRange
  | privileged
  | length
  | typeMismatch
deriving DecidableEq, Repr

/-- The parameters of reset (DESIGN CHOICE, unsafe: log 1). -/
def Boot.initial : Boot where
  firstIp := 0x00008000
  tables :=
    { prcbBase := 0
      sptBase := 0x00005000
      intTableBase := 0x00010000
      intStackBase := 0x00020000
      faultTableBase := 0x00004000
      ctrlTableBase := 0x00007000 }
  config := { faultOnUnaligned := false, regcacheSets := 5 }
  initAc := 0x00001000
  icacheEnabled := true

/-- The state right after power-up (`10_state.md` R90; `70_reset_and_hazards.md` R602), on an initial
memory image of zeros: `State.powerUp` of the parameters `Boot.initial`, written out. The values of the
OPEN parameters and of the registers that R90 leaves unspecified are DESIGN CHOICES (logs 1 to 5). -/
def State.reset : State where
  locals := ((Vector.replicate 16 0).set 1 0x00020040)
  globals := ((Vector.replicate 16 0).set 15 0x00020000)
  ip := 0x00008000
  ac := 0x00001000
  pctl := 0x001F2002
  tc := 0
  mem := []
  rcache := []
  depth := 0
  tables := Boot.initial.tables
  config := Boot.initial.config
  ctrl :=
    { ipb0 := 0, ipb1 := 0, dab0 := 0, dab1 := 0, imap0 := 0, imap1 := 0, imap2 := 0, icon := 0
      mcon := Vector.replicate 16 0
      bpcon := 0, bcon := 1 }
  intc :=
    { ipnd := 0, imsk := 0, swPriority := 0, nmiPending := false, nmiDepth := none
      xint := 0xFF, nmiPin := true, events := [] }
  dma :=
    { dmac := 0
      control := Vector.replicate 4 0
      status := Vector.replicate 4 (Vector.replicate 8 0)
      started := Vector.replicate 4 false }
  icache := { mode := .normal1k, image := [], locked := none, fetchingLocked := false }
  trace :=
    { traceIp := 0
      tcDelay := { left := 0, old := 0 }
      teDelay := { left := 0, old := false } }
  draws := 0
  boot := Boot.initial
  turns := []

end Sys2Proof.Machine
end

