-- ==== Sys2Proof/Machine/Memory.lean ====
section
/-! DEFINITION. Memory as one canonical list of bytes, and the accesses built from bytes in the byte
order of the region (`20_memory.md` R100 to R106, R144). Addresses wrap modulo 2^32 (R101, D20). -/

namespace Sys2Proof.Machine

/-- What a byte that nothing has written reads as (DESIGN CHOICE, unsafe: log 4). -/
def unlistedByte : Byte := 0

/-- The byte at an address. -/
def Memory.read : Memory → Nat → Byte
  | [], _ => unlistedByte
  | (k, b) :: m, a => if k = a then b else Memory.read m a

/-- Write the byte at an address, keeping the canonical form. -/
def Memory.write : Memory → Nat → Byte → Memory
  | [], a, v => if v = unlistedByte then [] else [(a, v)]
  | (k, b) :: m, a, v =>
    if a < k then (if v = unlistedByte then (k, b) :: m else (a, v) :: (k, b) :: m)
    else if a = k then (if v = unlistedByte then m else (a, v) :: m)
    else (k, b) :: Memory.write m a v

/-- Every address of the list is above `lo`, the list rises strictly, stays inside the address space
and lists no byte that an unlisted address would read the same. -/
def Memory.wfAbove : Nat → Memory → Bool
  | _, [] => true
  | lo, (k, b) :: m =>
    decide (lo ≤ k) && decide (k < 2 ^ 32) && decide (b ≠ unlistedByte) && Memory.wfAbove (k + 1) m

/-- The canonical form of memory. -/
def Memory.wf (m : Memory) : Bool := Memory.wfAbove 0 m

/-- A 16-bit value from its bytes, the byte at the lowest address first (R103, R104). -/
def halfOfBytes (be : Bool) (b0 b1 : Byte) : BitVec 16 :=
  if be then (b0 ++ b1 : BitVec 16) else (b1 ++ b0 : BitVec 16)

/-- A 32-bit value from its bytes, the byte at the lowest address first (R103, R104). -/
def wordOfMem (be : Bool) (b0 b1 b2 b3 : Byte) : Word :=
  if be then (b0 ++ b1 ++ b2 ++ b3 : BitVec 32) else (b3 ++ b2 ++ b1 ++ b0 : BitVec 32)

/-- The bytes of a 16-bit value, the byte at the lowest address first (R103, R104). -/
def bytesOfHalf (be : Bool) (v : BitVec 16) : List Byte :=
  if be then [v.extractLsb' 8 8, v.extractLsb' 0 8] else [v.extractLsb' 0 8, v.extractLsb' 8 8]

/-- The bytes of a 32-bit value, the byte at the lowest address first (R103, R104). -/
def bytesOfWord (be : Bool) (v : Word) : List Byte :=
  if be then
    [v.extractLsb' 24 8, v.extractLsb' 16 8, v.extractLsb' 8 8, v.extractLsb' 0 8]
  else
    [v.extractLsb' 0 8, v.extractLsb' 8 8, v.extractLsb' 16 8, v.extractLsb' 24 8]

/-- The 32-bit value at an address of a memory, in a given byte order. -/
def Memory.readWord (m : Memory) (be : Bool) (a : Word) : Word :=
  wordOfMem be (m.read a.toNat) (m.read (a + 1).toNat) (m.read (a + 2).toNat) (m.read (a + 3).toNat)

/-- The MCON register that governs an address (R144): entry 0 while BCON.ctv = 0. -/
def State.regionEntry (s : State) (a : Word) : Word :=
  if s.ctrl.bcon.getLsbD 0 then s.ctrl.mcon.get (a.extractLsb' 28 4).toFin else s.ctrl.mcon[0]

/-- Whether the region of an address is big endian: bit 22 of its MCON register (R104). -/
def State.bigEndian (s : State) (a : Word) : Bool := (s.regionEntry a).getLsbD 22

/-- The byte at an address. -/
def State.readByte (s : State) (a : Word) : Byte := s.mem.read a.toNat

/-- The 16-bit value at an address, in the byte order of its region. -/
def State.readHalf (s : State) (a : Word) : BitVec 16 :=
  halfOfBytes (s.bigEndian a) (s.readByte a) (s.readByte (a + 1))

/-- The word at an address, in the byte order of its region. -/
def State.readWord (s : State) (a : Word) : Word := s.mem.readWord (s.bigEndian a) a

/-- Write one byte. -/
def State.writeByte (s : State) (a : Word) (v : Byte) : State :=
  { s with mem := s.mem.write a.toNat v }

/-- Write bytes at rising addresses. -/
def State.writeBytes (s : State) (a : Word) : List Byte → State
  | [] => s
  | b :: bs => (s.writeByte a b).writeBytes (a + 1) bs

/-- Write a 16-bit value in the byte order of its region. -/
def State.writeHalf (s : State) (a : Word) (v : BitVec 16) : State :=
  s.writeBytes a (bytesOfHalf (s.bigEndian a) v)

/-- Write a word in the byte order of its region. -/
def State.writeWord (s : State) (a : Word) (v : Word) : State :=
  s.writeBytes a (bytesOfWord (s.bigEndian a) v)

/-- Write words at rising addresses, each in the byte order of its region (R104, R105). -/
def State.writeWords (s : State) (a : Word) : List Word → State
  | [] => s
  | w :: ws => (s.writeWord a w).writeWords (a + 4) ws

/-- The sixteen words from an address on: a register save area (`10_state.md` R25). -/
def State.readSet (s : State) (a : Word) : Vector Word 16 :=
  #v[s.readWord a, s.readWord (a + 4), s.readWord (a + 8), s.readWord (a + 12),
     s.readWord (a + 16), s.readWord (a + 20), s.readWord (a + 24), s.readWord (a + 28),
     s.readWord (a + 32), s.readWord (a + 36), s.readWord (a + 40), s.readWord (a + 44),
     s.readWord (a + 48), s.readWord (a + 52), s.readWord (a + 56), s.readWord (a + 60)]

/-- An address in internal data RAM (`20_memory.md` R140). -/
def inDataRam (a : Word) : Bool := decide (a.toNat < 0x400)

/-- A byte of internal data RAM that user mode may not write (R112): 0 to FFH always, 100H to 3FFH
while BCON.irp = 1. -/
def State.protectedByte (s : State) (a : Word) : Bool :=
  decide (a.toNat < 0x100) || (s.ctrl.bcon.getLsbD 1 && inDataRam a)

/-- Whether any of n bytes from an address is protected (R112, D22). -/
def State.protectedRange (s : State) (a : Word) (n : Nat) : Bool :=
  (List.range n).any fun k => s.protectedByte (a + BitVec.ofNat 32 k)

/-- The natural boundary of an access of n bytes (R107). -/
def naturalBoundary (n : Nat) : Nat := if n = 12 then 16 else n

/-- The bases of the tables are aligned (R111). -/
def Tables.aligned (t : Tables) : Bool :=
  t.sptBase.extractLsb' 0 2 == 0 && t.intTableBase.extractLsb' 0 2 == 0 &&
    t.faultTableBase.extractLsb' 0 2 == 0 && t.ctrlTableBase.extractLsb' 0 4 == 0

/-! Other agents and the bus requests of one instruction (`20_memory.md` R109, R122 to R124; log 40). -/

/-- The channels that are started, as bits. -/
def State.startedMask (s : State) : BitVec 4 :=
  BitVec.ofBool s.dma.started[3] ++ BitVec.ofBool s.dma.started[2] ++
    BitVec.ofBool s.dma.started[1] ++ BitVec.ofBool s.dma.started[0]

/-- A byte written by the DMA controller or another bus master. Internal data RAM is on chip: only
the DMA controller reaches it, and only while a channel is started (`47_dma.md` R481). -/
def State.agentWrite (s : State) (c : Host.Cell) : State :=
  let a := BitVec.ofNat 32 c.1
  if inDataRam a && s.startedMask == 0 then s else s.writeByte a c.2

/-- Between two bus requests: other agents write what is next in `turns` (R122, R124). -/
def State.turn (s : State) : State :=
  match s.turns with
  | [] => s
  | ws :: rest => ws.foldl State.agentWrite { s with turns := rest }

/-- Between two bus requests with LOCK asserted (R123): no other bus master writes the n bytes from an
address on; the DMA controller is not held off. -/
def State.lockedTurn (s : State) (a : Word) (n : Nat) : State :=
  match s.turns with
  | [] => s
  | ws :: rest =>
    (ws.filter fun c => s.startedMask != 0 || decide (n ≤ (BitVec.ofNat 32 c.1 - a).toNat)).foldl
      State.agentWrite { s with turns := rest }

/-- Whether byte k of an unaligned access of n bytes begins a new bus request (R109): single bytes up
to a word boundary, then words while four bytes remain, then single bytes; a quad at offset 8 is two
double words. An aligned access is one request. -/
def startsRequest (a : Word) (n k : Nat) : Bool :=
  let m := (a.toNat + k) % 4
  if k = 0 ∨ a.toNat % naturalBoundary n = 0 then false
  else if n = 16 ∧ a.toNat % 16 = 8 then (a.toNat + k) % 8 == 0
  else if m ≤ k ∧ k + 4 ≤ n + m then m == 0
  else true

/-- The bytes that an access of n bytes reads, j of them from byte k on, and the state after it: other
agents have their turn between the requests. -/
def State.readRequests (s : State) (a : Word) (n k : Nat) : Nat → List Byte × State
  | 0 => ([], s)
  | j + 1 =>
    let s1 := if startsRequest a n k then s.turn else s
    let r := s1.readRequests a n (k + 1) j
    (s1.readByte (a + BitVec.ofNat 32 k) :: r.1, r.2)

/-- An access of n bytes that writes bytes, from byte k on: other agents have their turn between the
requests. -/
def State.writeRequests (s : State) (a : Word) (n k : Nat) : List Byte → State
  | [] => s
  | b :: bs =>
    let s1 := if startsRequest a n k then s.turn else s
    (s1.writeByte (a + BitVec.ofNat 32 k) b).writeRequests a n (k + 1) bs

/-- The words of a list of bytes read at an address, each in the byte order of its region (R104,
R105). -/
def State.wordsOf (s : State) (a : Word) : List Byte → List Word
  | b0 :: b1 :: b2 :: b3 :: bs => wordOfMem (s.bigEndian a) b0 b1 b2 b3 :: s.wordsOf (a + 4) bs
  | _ => []

/-- The bytes of words stored at an address, each in the byte order of its region (R104, R105). -/
def State.bytesOf (s : State) (a : Word) : List Word → List Byte
  | [] => []
  | w :: ws => bytesOfWord (s.bigEndian a) w ++ s.bytesOf (a + 4) ws

/-- Write words as quad-word requests (R125), other agents having a turn before each. -/
def State.writeQuads (s : State) (a : Word) : List Word → State
  | w0 :: w1 :: w2 :: w3 :: ws => (s.turn.writeWords a [w0, w1, w2, w3]).writeQuads (a + 16) ws
  | ws => s.writeWords a ws

/-- The words from an address on. -/
def State.readWords (s : State) (a : Word) : Nat → List Word
  | 0 => []
  | n + 1 => s.readWord a :: s.readWords (a + 4) n

/-- Read words as q quad-word requests (R125), other agents having a turn before each. -/
def State.readQuads (s : State) (a : Word) : Nat → List Word × State
  | 0 => ([], s)
  | q + 1 =>
    let r := s.turn.readQuads (a + 16) q
    (s.turn.readWords a 4 ++ r.1, r.2)

/-- A register save area read as four quad-word requests, and the state after it. -/
def State.reloadSet (s : State) (a : Word) : Vector Word 16 × State :=
  let s1 := s.turn
  let s2 := s1.turn
  let s3 := s2.turn
  let s4 := s3.turn
  (#v[s1.readWord a, s1.readWord (a + 4), s1.readWord (a + 8), s1.readWord (a + 12),
      s2.readWord (a + 16), s2.readWord (a + 20), s2.readWord (a + 24), s2.readWord (a + 28),
      s3.readWord (a + 32), s3.readWord (a + 36), s3.readWord (a + 40), s3.readWord (a + 44),
      s4.readWord (a + 48), s4.readWord (a + 52), s4.readWord (a + 56), s4.readWord (a + 60)], s4)

end Sys2Proof.Machine
end

