-- ==== Sys2Proof/Syntax.lean ====
section
/-! DEFINITION. The instructions of the 80960CA as syntax: one constructor of `Instr` for each of the
132 rows of `spec/opcode_table.json`, with every operand form its encoding admits
(`30_encoding.md` R160 to R188). -/

namespace Sys2Proof

/-- A source operand of a REG instruction (`30_encoding.md` R170). -/
inductive Src where
  /-- M = 0, S = 0: a general register. -/
  | reg (n : RegNum)
  /-- M = 1, S = 0: the literal n, 0 to 31. -/
  | lit (n : BitVec 5)
  /-- M = 0, S = 1: the special function register sf n. -/
  | sfr (n : BitVec 5)
  /-- M = 1, S = 1: reserved (D24). -/
  | reserved (n : BitVec 5)
deriving DecidableEq, Repr

/-- A destination-only src/dst field of a REG instruction (`30_encoding.md` R170). -/
inductive Dst where
  /-- M3 = 0: a general register. -/
  | reg (n : RegNum)
  /-- M3 = 1: the special function register sf n. -/
  | sfr (n : BitVec 5)
deriving DecidableEq, Repr

/-- A field that admits only a register: a src/dst field that is both read and written
(`30_encoding.md` R170, R172), and the destination of `test` (R171). -/
inductive Upd where
  /-- Mode bit 0: a general register. -/
  | reg (n : RegNum)
  /-- Mode bit 1: not allowed (D24). -/
  | reserved (n : BitVec 5)
deriving DecidableEq, Repr

/-- The src/dst field of `sysctl` and `sdma`, a source only (`30_encoding.md` R170). -/
inductive Src3 where
  /-- M3 = 0: a general register. -/
  | reg (n : RegNum)
  /-- M3 = 1: the literal n. -/
  | lit (n : BitVec 5)
deriving DecidableEq, Repr

/-- The src1 field of a COBR instruction (`30_encoding.md` R171). -/
inductive CSrc1 where
  /-- M1 = 0: a general register. -/
  | reg (n : RegNum)
  /-- M1 = 1: the literal n. -/
  | lit (n : BitVec 5)
deriving DecidableEq, Repr

/-- The src2 field of a COBR instruction (`30_encoding.md` R171). -/
inductive CSrc2 where
  /-- S2 = 0: a general register. -/
  | reg (n : RegNum)
  /-- S2 = 1: the special function register sf n. -/
  | sfr (n : BitVec 5)
deriving DecidableEq, Repr

/-- The scale factors 1, 2, 4, 8 and 16 of an index register (`30_encoding.md` R175, R176). -/
inductive Scale where
  | x1 | x2 | x4 | x8 | x16
deriving DecidableEq, Repr

/-- The nine addressing modes of MEM instructions (`30_encoding.md` R175, R176). -/
inductive Efa where
  /-- absolute offset (MEMA mode 0) -/
  | absOffset (offset : BitVec 12)
  /-- register indirect with offset (MEMA mode 1) -/
  | regOffset (abase : RegNum) (offset : BitVec 12)
  /-- register indirect (MEMB 0100) -/
  | regInd (abase : RegNum)
  /-- IP with displacement (MEMB 0101, two words) -/
  | ipDisp (disp : Word)
  /-- register indirect with index (MEMB 0111) -/
  | regIndex (abase index : RegNum) (scale : Scale)
  /-- absolute displacement (MEMB 1100, two words) -/
  | absDisp (disp : Word)
  /-- register indirect with displacement (MEMB 1101, two words) -/
  | regDisp (abase : RegNum) (disp : Word)
  /-- index with displacement (MEMB 1110, two words) -/
  | indexDisp (index : RegNum) (scale : Scale) (disp : Word)
  /-- register indirect with index and displacement (MEMB 1111, two words) -/
  | regIndexDisp (abase index : RegNum) (scale : Scale) (disp : Word)
deriving DecidableEq, Repr

/-- The instructions (`30_encoding.md` R186). `disp` of a CTRL or COBR instruction is the field of
the word, a displacement in words; `t` is the branch-prediction bit, which has no architectural
effect (R169, log 32). -/
inductive Instr where
  /-- CTRL 08H; `43_compare_branch.md` R361. -/
  | b (disp : BitVec 22) (t : Bool)
  /-- CTRL 09H; `44_call_return.md` R409. -/
  | call (disp : BitVec 22) (t : Bool)
  /-- CTRL 0AH; `44_call_return.md` R412. -/
  | ret
  /-- CTRL 0BH; `43_compare_branch.md` R363. -/
  | bal (disp : BitVec 22) (t : Bool)
  /-- CTRL 10H; `43_compare_branch.md` R389. -/
  | bno (disp : BitVec 22) (t : Bool)
  /-- CTRL 11H; `43_compare_branch.md` R390. -/
  | bg (disp : BitVec 22) (t : Bool)
  /-- CTRL 12H; `43_compare_branch.md` R391. -/
  | be (disp : BitVec 22) (t : Bool)
  /-- CTRL 13H; `43_compare_branch.md` R392. -/
  | bge (disp : BitVec 22) (t : Bool)
  /-- CTRL 14H; `43_compare_branch.md` R393. -/
  | bl (disp : BitVec 22) (t : Bool)
  /-- CTRL 15H; `43_compare_branch.md` R394. -/
  | bne (disp : BitVec 22) (t : Bool)
  /-- CTRL 16H; `43_compare_branch.md` R395. -/
  | ble (disp : BitVec 22) (t : Bool)
  /-- CTRL 17H; `43_compare_branch.md` R396. -/
  | bo (disp : BitVec 22) (t : Bool)
  /-- CTRL 18H; `45_fault_debug.md` R442. -/
  | faultno
  /-- CTRL 19H; `45_fault_debug.md` R443. -/
  | faultg
  /-- CTRL 1AH; `45_fault_debug.md` R444. -/
  | faulte
  /-- CTRL 1BH; `45_fault_debug.md` R445. -/
  | faultge
  /-- CTRL 1CH; `45_fault_debug.md` R446. -/
  | faultl
  /-- CTRL 1DH; `45_fault_debug.md` R447. -/
  | faultne
  /-- CTRL 1EH; `45_fault_debug.md` R448. -/
  | faultle
  /-- CTRL 1FH; `45_fault_debug.md` R449. -/
  | faulto
  /-- COBR 20H; `43_compare_branch.md` R351. -/
  | testno (dst : Upd)
  /-- COBR 21H; `43_compare_branch.md` R352. -/
  | testg (dst : Upd)
  /-- COBR 22H; `43_compare_branch.md` R353. -/
  | teste (dst : Upd)
  /-- COBR 23H; `43_compare_branch.md` R354. -/
  | testge (dst : Upd)
  /-- COBR 24H; `43_compare_branch.md` R355. -/
  | testl (dst : Upd)
  /-- COBR 25H; `43_compare_branch.md` R356. -/
  | testne (dst : Upd)
  /-- COBR 26H; `43_compare_branch.md` R357. -/
  | testle (dst : Upd)
  /-- COBR 27H; `43_compare_branch.md` R358. -/
  | testo (dst : Upd)
  /-- COBR 30H; `43_compare_branch.md` R372. -/
  | bbc (src1 : CSrc1) (src2 : CSrc2) (disp : BitVec 11) (t : Bool)
  /-- COBR 31H; `43_compare_branch.md` R374. -/
  | cmpobg (src1 : CSrc1) (src2 : CSrc2) (disp : BitVec 11) (t : Bool)
  /-- COBR 32H; `43_compare_branch.md` R375. -/
  | cmpobe (src1 : CSrc1) (src2 : CSrc2) (disp : BitVec 11) (t : Bool)
  /-- COBR 33H; `43_compare_branch.md` R376. -/
  | cmpobge (src1 : CSrc1) (src2 : CSrc2) (disp : BitVec 11) (t : Bool)
  /-- COBR 34H; `43_compare_branch.md` R377. -/
  | cmpobl (src1 : CSrc1) (src2 : CSrc2) (disp : BitVec 11) (t : Bool)
  /-- COBR 35H; `43_compare_branch.md` R378. -/
  | cmpobne (src1 : CSrc1) (src2 : CSrc2) (disp : BitVec 11) (t : Bool)
  /-- COBR 36H; `43_compare_branch.md` R379. -/
  | cmpoble (src1 : CSrc1) (src2 : CSrc2) (disp : BitVec 11) (t : Bool)
  /-- COBR 37H; `43_compare_branch.md` R373. -/
  | bbs (src1 : CSrc1) (src2 : CSrc2) (disp : BitVec 11) (t : Bool)
  /-- COBR 38H; `43_compare_branch.md` R380. -/
  | cmpibno (src1 : CSrc1) (src2 : CSrc2) (disp : BitVec 11) (t : Bool)
  /-- COBR 39H; `43_compare_branch.md` R381. -/
  | cmpibg (src1 : CSrc1) (src2 : CSrc2) (disp : BitVec 11) (t : Bool)
  /-- COBR 3AH; `43_compare_branch.md` R382. -/
  | cmpibe (src1 : CSrc1) (src2 : CSrc2) (disp : BitVec 11) (t : Bool)
  /-- COBR 3BH; `43_compare_branch.md` R383. -/
  | cmpibge (src1 : CSrc1) (src2 : CSrc2) (disp : BitVec 11) (t : Bool)
  /-- COBR 3CH; `43_compare_branch.md` R384. -/
  | cmpibl (src1 : CSrc1) (src2 : CSrc2) (disp : BitVec 11) (t : Bool)
  /-- COBR 3DH; `43_compare_branch.md` R385. -/
  | cmpibne (src1 : CSrc1) (src2 : CSrc2) (disp : BitVec 11) (t : Bool)
  /-- COBR 3EH; `43_compare_branch.md` R386. -/
  | cmpible (src1 : CSrc1) (src2 : CSrc2) (disp : BitVec 11) (t : Bool)
  /-- COBR 3FH; `43_compare_branch.md` R387. -/
  | cmpibo (src1 : CSrc1) (src2 : CSrc2) (disp : BitVec 11) (t : Bool)
  /-- REG 580H; `42_logical_bit.md` R318. -/
  | notbit (src1 src2 : Src) (dst : Dst)
  /-- REG 581H; `42_logical_bit.md` R301. -/
  | and (src1 src2 : Src) (dst : Dst)
  /-- REG 582H; `42_logical_bit.md` R302. -/
  | andnot (src1 src2 : Src) (dst : Dst)
  /-- REG 583H; `42_logical_bit.md` R316. -/
  | setbit (src1 src2 : Src) (dst : Dst)
  /-- REG 584H; `42_logical_bit.md` R303. -/
  | notand (src1 src2 : Src) (dst : Dst)
  /-- REG 586H; `42_logical_bit.md` R304. -/
  | xor (src1 src2 : Src) (dst : Dst)
  /-- REG 587H; `42_logical_bit.md` R305. -/
  | or (src1 src2 : Src) (dst : Dst)
  /-- REG 588H; `42_logical_bit.md` R306. -/
  | nor (src1 src2 : Src) (dst : Dst)
  /-- REG 589H; `42_logical_bit.md` R307. -/
  | xnor (src1 src2 : Src) (dst : Dst)
  /-- REG 58AH; `42_logical_bit.md` R308. -/
  | not (src : Src) (dst : Dst)
  /-- REG 58BH; `42_logical_bit.md` R309. -/
  | ornot (src1 src2 : Src) (dst : Dst)
  /-- REG 58CH; `42_logical_bit.md` R317. -/
  | clrbit (src1 src2 : Src) (dst : Dst)
  /-- REG 58DH; `42_logical_bit.md` R310. -/
  | notor (src1 src2 : Src) (dst : Dst)
  /-- REG 58EH; `42_logical_bit.md` R311. -/
  | nand (src1 src2 : Src) (dst : Dst)
  /-- REG 58FH; `42_logical_bit.md` R319. -/
  | alterbit (src1 src2 : Src) (dst : Dst)
  /-- REG 590H; `41_arithmetic.md` R266. -/
  | addo (src1 src2 : Src) (dst : Dst)
  /-- REG 591H; `41_arithmetic.md` R267. -/
  | addi (src1 src2 : Src) (dst : Dst)
  /-- REG 592H; `41_arithmetic.md` R269. -/
  | subo (src1 src2 : Src) (dst : Dst)
  /-- REG 593H; `41_arithmetic.md` R270. -/
  | subi (src1 src2 : Src) (dst : Dst)
  /-- REG 598H; `41_arithmetic.md` R283. -/
  | shro (src1 src2 : Src) (dst : Dst)
  /-- REG 59AH; `41_arithmetic.md` R286. -/
  | shrdi (src1 src2 : Src) (dst : Dst)
  /-- REG 59BH; `41_arithmetic.md` R285. -/
  | shri (src1 src2 : Src) (dst : Dst)
  /-- REG 59CH; `41_arithmetic.md` R282. -/
  | shlo (src1 src2 : Src) (dst : Dst)
  /-- REG 59DH; `41_arithmetic.md` R288. -/
  | rotate (src1 src2 : Src) (dst : Dst)
  /-- REG 59EH; `41_arithmetic.md` R284. -/
  | shli (src1 src2 : Src) (dst : Dst)
  /-- REG 5A0H; `43_compare_branch.md` R341. -/
  | cmpo (src1 src2 : Src)
  /-- REG 5A1H; `43_compare_branch.md` R342. -/
  | cmpi (src1 src2 : Src)
  /-- REG 5A2H; `43_compare_branch.md` R343. -/
  | concmpo (src1 src2 : Src)
  /-- REG 5A3H; `43_compare_branch.md` R344. -/
  | concmpi (src1 src2 : Src)
  /-- REG 5A4H; `43_compare_branch.md` R345. -/
  | cmpinco (src1 src2 : Src) (dst : Dst)
  /-- REG 5A5H; `43_compare_branch.md` R346. -/
  | cmpinci (src1 src2 : Src) (dst : Dst)
  /-- REG 5A6H; `43_compare_branch.md` R347. -/
  | cmpdeco (src1 src2 : Src) (dst : Dst)
  /-- REG 5A7H; `43_compare_branch.md` R348. -/
  | cmpdeci (src1 src2 : Src) (dst : Dst)
  /-- REG 5ACH; `42_logical_bit.md` R328. -/
  | scanbyte (src1 src2 : Src)
  /-- REG 5AEH; `42_logical_bit.md` R320. -/
  | chkbit (src1 src2 : Src)
  /-- REG 5B0H; `41_arithmetic.md` R268. -/
  | addc (src1 src2 : Src) (dst : Dst)
  /-- REG 5B2H; `41_arithmetic.md` R271. -/
  | subc (src1 src2 : Src) (dst : Dst)
  /-- REG 5CCH; `40_data_movement.md` R240. -/
  | mov (src : Src) (dst : Dst)
  /-- REG 5D8H; `41_arithmetic.md` R289. -/
  | eshro (src1 src2 : Src) (dst : Dst)
  /-- REG 5DCH; `40_data_movement.md` R241. -/
  | movl (src : Src) (dst : Dst)
  /-- REG 5ECH; `40_data_movement.md` R242. -/
  | movt (src : Src) (dst : Dst)
  /-- REG 5FCH; `40_data_movement.md` R243. -/
  | movq (src : Src) (dst : Dst)
  /-- REG 610H; `46_atomic_procmgmt.md` R451. -/
  | atmod (src1 src2 : Src) (dst : Upd)
  /-- REG 612H; `46_atomic_procmgmt.md` R450. -/
  | atadd (src1 src2 : Src) (dst : Dst)
  /-- REG 630H; `47_dma.md` R482. -/
  | sdma (src1 src2 : Src) (src3 : Src3)
  /-- REG 631H; `47_dma.md` R483. -/
  | udma
  /-- REG 640H; `42_logical_bit.md` R322. -/
  | spanbit (src : Src) (dst : Dst)
  /-- REG 641H; `42_logical_bit.md` R321. -/
  | scanbit (src : Src) (dst : Dst)
  /-- REG 645H; `46_atomic_procmgmt.md` R462. -/
  | modac (src1 src2 : Src) (dst : Dst)
  /-- REG 650H; `42_logical_bit.md` R326. -/
  | modify (src1 src2 : Src) (dst : Upd)
  /-- REG 651H; `42_logical_bit.md` R325. -/
  | extract (src1 src2 : Src) (dst : Upd)
  /-- REG 654H; `45_fault_debug.md` R437. -/
  | modtc (src1 src2 : Src) (dst : Dst)
  /-- REG 655H; `46_atomic_procmgmt.md` R463. -/
  | modpc (src1 src2 : Src) (dst : Upd)
  /-- REG 659H; `46_atomic_procmgmt.md` R465. -/
  | sysctl (src1 src2 : Src) (src3 : Src3)
  /-- REG 660H; `44_call_return.md` R411. -/
  | calls (src : Src)
  /-- REG 66BH; `45_fault_debug.md` R431. -/
  | mark
  /-- REG 66CH; `45_fault_debug.md` R432. -/
  | fmark
  /-- REG 66DH; `44_call_return.md` R416. -/
  | flushreg
  /-- REG 66FH; `45_fault_debug.md` R440. -/
  | syncf
  /-- REG 670H; `41_arithmetic.md` R274. -/
  | emul (src1 src2 : Src) (dst : Dst)
  /-- REG 671H; `41_arithmetic.md` R280. -/
  | ediv (src1 src2 : Src) (dst : Dst)
  /-- REG 701H; `41_arithmetic.md` R272. -/
  | mulo (src1 src2 : Src) (dst : Dst)
  /-- REG 708H; `41_arithmetic.md` R277. -/
  | remo (src1 src2 : Src) (dst : Dst)
  /-- REG 70BH; `41_arithmetic.md` R275. -/
  | divo (src1 src2 : Src) (dst : Dst)
  /-- REG 741H; `41_arithmetic.md` R273. -/
  | muli (src1 src2 : Src) (dst : Dst)
  /-- REG 748H; `41_arithmetic.md` R278. -/
  | remi (src1 src2 : Src) (dst : Dst)
  /-- REG 749H; `41_arithmetic.md` R279. -/
  | modi (src1 src2 : Src) (dst : Dst)
  /-- REG 74BH; `41_arithmetic.md` R276. -/
  | divi (src1 src2 : Src) (dst : Dst)
  /-- MEM 80H; `40_data_movement.md` R223. -/
  | ldob (efa : Efa) (dst : RegNum)
  /-- MEM 82H; `40_data_movement.md` R232. -/
  | stob (src : RegNum) (efa : Efa)
  /-- MEM 84H; `43_compare_branch.md` R362. -/
  | bx (efa : Efa)
  /-- MEM 85H; `43_compare_branch.md` R364. -/
  | balx (efa : Efa) (dst : RegNum)
  /-- MEM 86H; `44_call_return.md` R410. -/
  | callx (efa : Efa)
  /-- MEM 88H; `40_data_movement.md` R224. -/
  | ldos (efa : Efa) (dst : RegNum)
  /-- MEM 8AH; `40_data_movement.md` R233. -/
  | stos (src : RegNum) (efa : Efa)
  /-- MEM 8CH; `40_data_movement.md` R230. -/
  | lda (efa : Efa) (dst : RegNum)
  /-- MEM 90H; `40_data_movement.md` R222. -/
  | ld (efa : Efa) (dst : RegNum)
  /-- MEM 92H; `40_data_movement.md` R231. -/
  | st (src : RegNum) (efa : Efa)
  /-- MEM 98H; `40_data_movement.md` R227. -/
  | ldl (efa : Efa) (dst : RegNum)
  /-- MEM 9AH; `40_data_movement.md` R236. -/
  | stl (src : RegNum) (efa : Efa)
  /-- MEM A0H; `40_data_movement.md` R228. -/
  | ldt (efa : Efa) (dst : RegNum)
  /-- MEM A2H; `40_data_movement.md` R237. -/
  | stt (src : RegNum) (efa : Efa)
  /-- MEM B0H; `40_data_movement.md` R229. -/
  | ldq (efa : Efa) (dst : RegNum)
  /-- MEM B2H; `40_data_movement.md` R238. -/
  | stq (src : RegNum) (efa : Efa)
  /-- MEM C0H; `40_data_movement.md` R225. -/
  | ldib (efa : Efa) (dst : RegNum)
  /-- MEM C2H; `40_data_movement.md` R234. -/
  | stib (src : RegNum) (efa : Efa)
  /-- MEM C8H; `40_data_movement.md` R226. -/
  | ldis (efa : Efa) (dst : RegNum)
  /-- MEM CAH; `40_data_movement.md` R235. -/
  | stis (src : RegNum) (efa : Efa)
deriving DecidableEq, Repr

/-- The length in bytes of a MEM instruction with this addressing mode (`30_encoding.md` R168). -/
def Efa.len : Efa → Word
  | .absOffset _ => 4
  | .regOffset _ _ => 4
  | .regInd _ => 4
  | .ipDisp _ => 8
  | .regIndex _ _ _ => 4
  | .absDisp _ => 8
  | .regDisp _ _ => 8
  | .indexDisp _ _ _ => 8
  | .regIndexDisp _ _ _ _ => 8

end Sys2Proof
end

