-- ==== Sys2Proof/Machine/Operands.lean ====
section
/-! DEFINITION. Registers and operands: reading and writing general and special function registers,
the fields of AC and PC, the operand checks of `61_faults.md` R531 steps 5 and 6, and effective
addresses (`30_encoding.md` R166 to R181). -/

namespace Sys2Proof.Machine

/-- A word with one bit set to a value. -/
def putBit (w : Word) (k : Nat) (b : Bool) : Word :=
  if b then w ||| (1#32 <<< k) else w &&& ~~~(1#32 <<< k)

/-- The bits of `v` under `mask`, the bits of `w` elsewhere: the rule of `modify`, `modac`,
`modtc`, `modpc` and `atmod`. -/
def underMask (mask v w : Word) : Word := (v &&& mask) ||| (w &&& ~~~mask)

/-! General registers (`10_state.md` R20; `30_encoding.md` R166). -/

/-- The general register with a register number. -/
def State.getReg (s : State) (n : RegNum) : Word :=
  if h : n.toNat < 16 then s.locals[n.toNat]
  else s.globals[n.toNat - 16]'(by have := n.isLt; omega)

/-- Write the general register with a register number. -/
def State.setReg (s : State) (n : RegNum) (v : Word) : State :=
  if h : n.toNat < 16 then { s with locals := s.locals.set n.toNat v }
  else { s with globals := s.globals.set (n.toNat - 16) v (by have := n.isLt; omega) }

/-- FP, g15 (`10_state.md` R21). -/
def State.fp (s : State) : Word := s.getReg 31
/-- SP, r1 (`10_state.md` R23). -/
def State.sp (s : State) : Word := s.getReg 1
/-- PFP, r0 (`10_state.md` R22). -/
def State.pfp (s : State) : Word := s.getReg 0

/-! Fields of AC (`10_state.md` R40) and PC (R47). -/

/-- AC.cc. -/
def State.cc (s : State) : BitVec 3 := s.ac.extractLsb' 0 3
/-- The state with AC.cc replaced. -/
def State.setCc (s : State) (c : BitVec 3) : State :=
  { s with ac := (s.ac &&& ~~~7#32) ||| c.zeroExtend 32 }
/-- AC.om, the integer-overflow mask. -/
def State.om (s : State) : Bool := s.ac.getLsbD 12
/-- AC.nif, no imprecise faults. -/
def State.nif (s : State) : Bool := s.ac.getLsbD 15
/-- PC.te, trace enable. -/
def State.te (s : State) : Bool := s.pctl.getLsbD 0
/-- PC.em: true is supervisor mode. -/
def State.em (s : State) : Bool := s.pctl.getLsbD 1
/-- PC.tfp, trace fault pending. -/
def State.tfp (s : State) : Bool := s.pctl.getLsbD 10
/-- PC.s: true is the interrupted state. -/
def State.interrupted (s : State) : Bool := s.pctl.getLsbD 13
/-- PC.p, the priority. -/
def State.priority (s : State) : BitVec 5 := s.pctl.extractLsb' 16 5

/-- The state with PC replaced; an implicit change of PC.te ends the window of
`70_reset_and_hazards.md` R622. -/
def State.setPctl (s : State) (w : Word) : State :=
  { s with pctl := w, trace := { s.trace with teDelay := { left := 0, old := false } } }

/-! Special function registers (`10_state.md` R30, R34 to R36). -/

/-- The special function register sf n; sf3 to sf31 are not implemented and never read here. -/
def State.getSfr (s : State) (n : BitVec 5) : Word :=
  match n.toNat with
  | 0 => s.intc.ipnd
  | 1 => s.intc.imsk
  | 2 => s.dma.dmac
  | _ => 0

/-- Write the special function register sf n. -/
def State.setSfr (s : State) (n : BitVec 5) (v : Word) : State :=
  match n.toNat with
  | 0 => { s with intc := { s.intc with ipnd := v } }
  | 1 => { s with intc := { s.intc with imsk := v } }
  | 2 => { s with dma := { s.dma with dmac := v } }
  | _ => s

/-! Operands. -/

/-- An operand as the instruction sees it (`30_encoding.md` R170 to R172). -/
inductive Operand where
  | reg (n : RegNum)
  | lit (n : BitVec 5)
  | sfr (n : BitVec 5)
  /-- an operand form that the instruction does not allow (D24) -/
  | bad
deriving DecidableEq, Repr

/-- A REG source (R170). -/
def srcOperand : Src → Operand
  | .reg n => .reg n
  | .lit n => .lit n
  | .sfr n => .sfr n
  | .reserved _ => .bad

/-- The address of `atadd` and `atmod`: a literal is not allowed (`46_atomic_procmgmt.md` R450). -/
def addressOperand : Src → Operand
  | .reg n => .reg n
  | .lit _ => .bad
  | .sfr n => .sfr n
  | .reserved _ => .bad

/-- A destination (R170). -/
def dstOperand : Dst → Operand
  | .reg n => .reg n
  | .sfr n => .sfr n

/-- A field that must be a register (R170, R171). With M3 or M1 set it counts as an operand that is not
allowed, not as a special function register, also in user mode (DESIGN CHOICE, unsafe: log 26). -/
def updOperand : Upd → Operand
  | .reg n => .reg n
  | .reserved _ => .bad

/-- The third source of `sysctl` and `sdma` (R170). -/
def src3Operand : Src3 → Operand
  | .reg n => .reg n
  | .lit n => .lit n

/-- COBR src1 (R171). -/
def csrc1Operand : CSrc1 → Operand
  | .reg n => .reg n
  | .lit n => .lit n

/-- COBR src2 (R171). -/
def csrc2Operand : CSrc2 → Operand
  | .reg n => .reg n
  | .sfr n => .sfr n

/-- An operand with the number of words it has and the alignment of its first register
(`10_state.md` R26). -/
structure Use where
  operand : Operand
  width : Nat
  align : Nat
deriving DecidableEq, Repr

/-- A single word. -/
def Operand.one (o : Operand) : Use := ⟨o, 1, 1⟩
/-- A long operand: an even-numbered pair. -/
def Operand.two (o : Operand) : Use := ⟨o, 2, 2⟩
/-- A triple operand: the register number is a multiple of 4. -/
def Operand.three (o : Operand) : Use := ⟨o, 3, 4⟩
/-- A quad operand: the register number is a multiple of 4. -/
def Operand.four (o : Operand) : Use := ⟨o, 4, 4⟩

/-- The operand names a special function register (`61_faults.md` R531 step 5). -/
def Use.isSfr (u : Use) : Bool :=
  match u.operand with
  | .sfr _ => true
  | _ => false

/-- The operand raises OPERATION.INVALID_OPERAND (R531 step 6): a form that is not allowed, a
register group that is not aligned, a special function register that is not implemented. -/
def Use.invalid (u : Use) : Bool :=
  match u.operand with
  | .reg n => n.toNat % u.align != 0
  | .lit _ => false
  | .sfr n => n.toNat % u.align != 0 || decide (3 < n.toNat + u.width)
  | .bad => true

/-- The first failing operand check of R531 (steps 5 and 6), if any. -/
def State.operandFault (s : State) (us : List Use) : Option FaultCode :=
  if !s.em && us.any Use.isSfr then some .typeMismatch
  else if us.any Use.invalid then some .invalidOperand
  else none

/-- Word k of an operand's value (`30_encoding.md` R173): a literal is zero-extended. -/
def State.value (s : State) (o : Operand) (k : Nat) : Word :=
  match o with
  | .reg n => s.getReg (n + BitVec.ofNat 5 k)
  | .lit n => if k = 0 then n.zeroExtend 32 else 0
  | .sfr n => s.getSfr (n + BitVec.ofNat 5 k)
  | .bad => 0

/-- Write word k of a destination operand. -/
def State.putValue (s : State) (o : Operand) (k : Nat) (v : Word) : State :=
  match o with
  | .reg n => s.setReg (n + BitVec.ofNat 5 k) v
  | .sfr n => s.setSfr (n + BitVec.ofNat 5 k) v
  | .lit _ => s
  | .bad => s

/-! Effective addresses (`30_encoding.md` R175 to R181). -/

/-- The scale factor (R176). -/
def scaleFactor : Scale → Word
  | .x1 => 1
  | .x2 => 2
  | .x4 => 4
  | .x8 => 8
  | .x16 => 16

/-- The effective address of a MEM instruction at address `ip`, modulo 2^32 (R175). -/
def State.address (s : State) (ip : Word) : Efa → Word
  | .absOffset o => o.zeroExtend 32
  | .regOffset a o => s.getReg a + o.zeroExtend 32
  | .regInd a => s.getReg a
  | .ipDisp d => ip + 8 + d
  | .regIndex a i k => s.getReg a + s.getReg i * scaleFactor k
  | .absDisp d => d
  | .regDisp a d => s.getReg a + d
  | .indexDisp i k d => s.getReg i * scaleFactor k + d
  | .regIndexDisp a i k d => s.getReg a + s.getReg i * scaleFactor k + d

/-- The displacement of a CTRL instruction in bytes (`43_compare_branch.md` R360). -/
def ctrlOffset (disp : BitVec 22) : Word := (disp ++ 0#2 : BitVec 24).signExtend 32

/-- The displacement of a COBR instruction in bytes (`43_compare_branch.md` R370). -/
def cobrOffset (disp : BitVec 11) : Word := (disp ++ 0#2 : BitVec 13).signExtend 32

/-- A control-transfer target with bits 1:0 dropped (D29). -/
def alignTarget (a : Word) : Word := a &&& 0xFFFFFFFC

/-- An address rounded up to a multiple of 16 (`44_call_return.md` R404). -/
def roundUp16 (a : Word) : Word := (a + 15) &&& 0xFFFFFFF0

end Sys2Proof.Machine
end

