-- ==== Sys2Proof/Machine/Ops.lean ====
section
/-! DEFINITION. The named operations that meanings share: trace events, the register cache, call and
return, taking a fault or an interrupt, and the frame in which every instruction runs
(`61_faults.md` R531; `62_tracing.md` R573 to R576; `44_call_return.md` R402 to R412). -/

namespace Sys2Proof.Machine

/-! Trace events (`62_tracing.md` R571; the flags are bits of TC, `10_state.md` R55). -/

/-- TC.if -/
def evInstruction : Word := 0x00020000
/-- TC.bf -/
def evBranch : Word := 0x00040000
/-- TC.cf -/
def evCall : Word := 0x00080000
/-- TC.rf -/
def evReturn : Word := 0x00100000
/-- TC.pf -/
def evPrereturn : Word := 0x00200000
/-- TC.sf -/
def evSupervisor : Word := 0x00400000
/-- TC.brf -/
def evBreakpoint : Word := 0x00800000
/-- TC.d0f with TC.brf (`62_tracing.md` R572) -/
def evData0 : Word := 0x01800000
/-- TC.d1f with TC.brf -/
def evData1 : Word := 0x02800000
/-- TC.i0f with TC.brf -/
def evFetch0 : Word := 0x04800000
/-- TC.i1f with TC.brf -/
def evFetch1 : Word := 0x08800000

/-- Which event flags the mode bits let through: bits 1 to 6 of TC gate bits 17 to 22; the
breakpoint flags were gated when they were noted (R571). -/
def eventGate (modes : Word) : Word := ((modes &&& 0x7E) <<< 16) ||| 0x0F800000

/-- `signal_trace_event` (R573): `te` is the trace enable that the event is judged with, `tip` the
address of the instruction that caused it. -/
def State.signal (s : State) (flags : Word) (te : Bool) (tip : Word) : State :=
  if flags = 0 then s
  else if te then
    { s with
      tc := s.tc ||| flags
      pctl := putBit s.pctl 10 true
      trace := { s.trace with traceIp := tip } }
  else { s with tc := s.tc ||| flags }

/-! The register cache (`44_call_return.md` R402; sets six to fifteen in internal data RAM by
`10_state.md` R72, log 16). -/

/-- The data-RAM address of the set at position k of the cache, k from 5 to 14 (R72). -/
def ramSlot (k : Nat) : Word := 0x400 - BitVec.ofNat 32 (64 * (k - 4))

/-- The cached sets, oldest first; those at positions 5 and up are read from data RAM, in the order of
`State.writeSlots`. -/
def State.cachedSets (s : State) : List SavedSet :=
  s.rcache.zipIdx.map fun p =>
    if p.2 < 5 then p.1 else { p.1 with words := s.readSet (ramSlot p.2) }

/-- Write the sets of positions k, k + 1, ... that lie in data RAM. Register i of a set goes to offset
4 * i of its 64 bytes: R72 gives the addresses only, this order is the model's (DESIGN CHOICE,
unsafe: log 16). -/
def State.writeSlots (s : State) (k : Nat) : List SavedSet → State
  | [] => s
  | c :: cs =>
    if k < 5 then s.writeSlots (k + 1) cs
    else (s.writeWords (ramSlot k) c.words.toList).writeSlots (k + 1) cs

/-- Make these the cached sets. The moves of sets within, into and out of data RAM match no data
breakpoint (DESIGN CHOICE, unsafe: log 22). -/
def State.storeSets (s : State) (cs : List SavedSet) : State :=
  { s.writeSlots 0 cs with rcache := cs }

/-- `save_locals` (R402): the current set goes into the cache; a full cache first writes its oldest
set to the save area of that set's frame, as four quad-word requests (`20_memory.md` R125). All cached
sets are read before that write and put back after it, so that a save area in the data-RAM places of
sets six to fifteen, or another agent's write there, changes none of them (DESIGN CHOICE, unsafe:
log 16). -/
def State.saveLocals (s : State) (frame : Word) : State :=
  if s.config.regcacheSets ≤ s.rcache.length then
    match s.cachedSets with
    | [] => s.storeSets [⟨frame, s.locals⟩]
    | old :: rest =>
      (s.writeQuads old.frame old.words.toList).storeSets (rest ++ [⟨frame, s.locals⟩])
  else s.storeSets (s.cachedSets ++ [⟨frame, s.locals⟩])

/-- The frame that `save_locals` would spill, if the cache is full (R402). -/
def State.spillFrame (s : State) : Option Word :=
  if s.config.regcacheSets ≤ s.rcache.length then s.rcache.head?.map SavedSet.frame else none

/-- `restore_locals` (R402, D30): the newest cached set, or the save area of the frame. -/
def State.restoreLocals (s : State) (frame : Word) : State :=
  match s.cachedSets.getLast? with
  | some c => { s with locals := c.words, rcache := s.rcache.dropLast }
  | none => { (s.reloadSet frame).2 with locals := (s.reloadSet frame).1 }

/-- Write sets to the save areas of their frames, in order (`flushreg`, R416). -/
def State.flushSets (s : State) : List SavedSet → State
  | [] => s
  | c :: cs => (s.writeQuads c.frame c.words.toList).flushSets cs

/-- The new local register set of a frame: PFP and SP, the rest free values (R403 (d), R404). -/
def newLocals (pfp sp : Word) (d : Nat) : Vector Word 16 :=
  #v[pfp, sp, Config.freeWord (d + 2), Config.freeWord (d + 3), Config.freeWord (d + 4),
     Config.freeWord (d + 5), Config.freeWord (d + 6), Config.freeWord (d + 7),
     Config.freeWord (d + 8), Config.freeWord (d + 9), Config.freeWord (d + 10),
     Config.freeWord (d + 11), Config.freeWord (d + 12), Config.freeWord (d + 13),
     Config.freeWord (d + 14), Config.freeWord (d + 15)]

/-- The frame part of every call action (R404): RIP into the caller's set, the set saved, a new set
with PFP and SP, FP at the new frame. `rt` is the return type, `p` the prereturn-trace flag. -/
def State.newFrame (s : State) (rip newFp : Word) (p : Bool) (rt : BitVec 3) : State :=
  let s1 := (s.setReg 2 rip).saveLocals s.fp
  let pfp := putBit ((s.fp &&& 0xFFFFFFF0) ||| rt.zeroExtend 32) 3 p
  { s1 with
    locals := newLocals pfp (newFp + 64) s1.draws
    globals := s1.globals.set 15 newFp
    depth := s1.depth + 1
    draws := s1.draws + 16
    icache := { s1.icache with fetchingLocked := false } }

/-! Taking a fault (`61_faults.md` R534 to R537). -/

/-- The fault type (`61_faults.md` R538). -/
def faultType : FaultCode → BitVec 8
  | .trace _ => 0x1
  | .invalidOpcode => 0x2
  | .unimplemented => 0x2
  | .unaligned => 0x2
  | .invalidOperand => 0x2
  | .integerOverflow => 0x3
  | .zeroDivide => 0x3
  | .constraintRange => 0x5
  | .privileged => 0x5
  | .length => 0x7
  | .typeMismatch => 0xA

/-- The fault subtype (R538). -/
def faultSubtype : FaultCode → BitVec 8
  | .trace sub => sub
  | .invalidOpcode => 0x1
  | .unimplemented => 0x2
  | .unaligned => 0x3
  | .invalidOperand => 0x4
  | .integerOverflow => 0x1
  | .zeroDivide => 0x2
  | .constraintRange => 0x1
  | .privileged => 0x2
  | .length => Config.protLengthSubtype
  | .typeMismatch => 0x1

/-- The type and subtype word of a fault record (R536). -/
def faultRecordWord (c : FaultCode) : Word :=
  ((faultType c).zeroExtend 32 <<< 16) ||| (faultSubtype c).zeroExtend 32

/-- How a fault handler is called (R534). -/
inductive CallKind where
  | localCall
  | systemLocal
  | systemSupervisor
deriving DecidableEq, Repr

/-- The address of entry n of the system-procedure table (`44_call_return.md` R407). -/
def State.procedureEntry (s : State) (n : Word) : Word := s.tables.sptBase + 48 + 4 * n

/-- The handler's address and the kind of call, from the fault table (R534); none where the entry
names a procedure number above 259 (U21). Other agents have a turn between the two reads. -/
def State.faultTarget (s : State) (c : FaultCode) : Option (Word × CallKind) :=
  let e0 := s.readWord (s.tables.faultTableBase + 8 * (faultType c).zeroExtend 32)
  if e0.getLsbD 1 = false then some (alignTarget e0, .localCall)
  else if 259 < (e0 >>> 2).toNat then none
  else
    let spe := s.turn.readWord (s.procedureEntry (e0 >>> 2))
    some (alignTarget spe, if spe.getLsbD 1 then .systemSupervisor else .systemLocal)

/-- The state once the tables are read: other agents have had a turn before each read but the first. -/
def State.afterTables (s : State) (kind : CallKind) : State :=
  match kind with
  | .localCall => s
  | .systemLocal => s.turn
  | .systemSupervisor => s.turn.turn

/-- The new stack pointer NSP of a fault entry (R535). -/
def State.faultStack (s : State) (kind : CallKind) : Word :=
  if kind = .systemSupervisor ∧ s.em = false then
    s.readWord (s.tables.sptBase + 12) &&& 0xFFFFFFFC
  else s.sp

/-- PC after a fault entry (R537, D45). -/
def State.faultPctl (s : State) (c : FaultCode) (kind : CallKind) : Word :=
  let w := putBit s.pctl 10 false
  if kind = .systemSupervisor then
    let t := if faultType c = 1 then false
      else (s.readWord (s.tables.sptBase + 12)).getLsbD 0
    putBit (putBit w 1 true) 0 t
  else if faultType c = 1 then putBit w 0 false
  else w

/-- The frame pointer NFP of a fault handler: 16 bytes of record below it (R536). -/
def State.faultFrame (s : State) (kind : CallKind) : Word := roundUp16 (s.faultStack kind) + 16

/-- The fault record: PC, AC, type and subtype, and the fault IP below NFP (R536). -/
def State.writeFaultRecord (s : State) (nfp savedPc savedAc : Word) (c : FaultCode)
    (faultIp : Word) : State :=
  (((s.writeWord (nfp - 16) savedPc).writeWord (nfp - 12) savedAc).writeWord (nfp - 8)
    (faultRecordWord c)).writeWord (nfp - 4) faultIp

/-- `fault_entry` (`61_faults.md` R537): taking a fault. The record is one quad-word request. The
call-trace event and PFP.p follow the new TC and PC.te, also within a window of R622 (DESIGN CHOICE,
unsafe: log 21). -/
def State.enterFault (s : State) (c : FaultCode) (faultIp rip : Word) : Except Refusal State :=
  match s.faultTarget c with
  | none => .error .faultProcedureNumber
  | some (target, kind) =>
    let s0 := s.afterTables kind
    let nfp := s0.faultFrame kind
    let s1 := s0.newFrame rip nfp (s.tc.getLsbD 3) 1
    let s2 := s1.turn.writeFaultRecord nfp s.pctl s.ac c faultIp
    let s3 := s2.setPctl (s0.faultPctl c kind)
    let s4 := s3.signal (evCall &&& eventGate s3.tc) s3.te faultIp
    .ok { s4 with ip := target }

/-- The RIP that a fault stores and how many free values it draws (`61_faults.md` R555, D46).
`next` is the address of the instruction after the faulting one. -/
def State.faultRip (s : State) (c : FaultCode) (next : Word) : Word × Nat :=
  match c with
  | .trace _ => (next, 0)
  | .integerOverflow => (next, 0)
  | .zeroDivide => (next, 0)
  | .length => (s.ip, 0)
  | .constraintRange => if s.nif then (next, 0) else (Config.freeWord s.draws, 1)
  | _ =>
    if s.nif then (if Config.freeBit s.draws then s.ip else next, 1)
    else (Config.freeWord s.draws, 1)

/-- The outcome of a fault entry. -/
def faultOutcome (e : Except Refusal State) : Host.Outcome State Fault Refusal :=
  match e with
  | .ok t => .next t
  | .error r => .refused r

/-- Take a fault of the instruction at `ip` of `s0`; `s` is the state at which it is taken (the same
for a fault before execution, the state after the instruction for one after it). -/
def takeFault (s0 s : State) (c : FaultCode) (next : Word) : Host.Outcome State Fault Refusal :=
  let d := { s0 with draws := s.draws }.faultRip c next
  faultOutcome ({ s with draws := s.draws + d.2 }.enterFault c s0.ip d.1)

/-- Take a fault that is found before the instruction at `ip` executes: in fetching, decoding or the
checks of R531 steps 1 to 6. Its entry belongs to the indivisible step 5 of `62_tracing.md` R585, so
other agents have no turn in it. -/
def takeEarlyFault (s : State) (c : FaultCode) (next : Word) : Host.Outcome State Fault Refusal :=
  takeFault s { s with turns := [] } c next

/-- The trace fault (`62_tracing.md` R575, D44): the event flags become the subtype and are
cleared; tfp is cleared before PC is saved. -/
def State.traceFault (s : State) (faultIp : Word) : Except Refusal State :=
  { s with
    tc := s.tc &&& 0xFF01FFFF
    pctl := putBit s.pctl 10 false }.enterFault
      (.trace (((s.tc >>> 16).truncate 8) &&& 0xFE)) faultIp s.ip

/-! Taking an interrupt (`60_exceptions.md` R513, R514, R517, R518). -/

/-- Where an interrupt comes from (R514). -/
inductive InterruptKind where
  | software
  | dedicated
  | expanded
  | nmi
deriving DecidableEq, Repr

/-- The vector entry: data RAM word 0 for the NMI, a cached vector, or the interrupt table
(R514, R518). -/
def State.vectorEntry (s : State) (v : BitVec 8) (kind : InterruptKind) : Word :=
  if kind = .nmi then s.readWord 0
  else if s.ctrl.icon.getLsbD 13 && v.extractLsb' 0 4 == 2#4 then
    s.readWord (4 * (v >>> 4).zeroExtend 32)
  else s.readWord (s.tables.intTableBase + 4 + 4 * v.zeroExtend 32)

/-- The interrupt handler's frame pointer (R513, R514): on the interrupt stack unless the processor
is in the interrupted state already. -/
def State.interruptFrame (s : State) : Word :=
  roundUp16 (if s.interrupted then s.sp else s.tables.intStackBase) + 16

/-- PC after an interrupt entry (R514): interrupted, supervisor, the interrupt's priority, tracing
off. -/
def interruptPctl (w : Word) (v : BitVec 8) : Word :=
  putBit (putBit (putBit (putBit
    ((w &&& 0xFFE0FFFF) ||| ((v >>> 3).zeroExtend 32 <<< 16)) 13 true) 1 true) 10 false) 0 false

/-- Saving the mask (R517): r3 receives IMSK for every hardware-requested interrupt; ICON.mo says
whether IMSK is then cleared. -/
def State.saveMask (s : State) (kind : InterruptKind) : State :=
  match kind with
  | .software => s
  | .expanded =>
    let s1 := s.setReg 3 s.intc.imsk
    if s.ctrl.icon.getLsbD 12 then s1.setSfr 1 0 else s1
  | _ =>
    let s1 := s.setReg 3 s.intc.imsk
    if s.ctrl.icon.getLsbD 11 then s1.setSfr 1 0 else s1

/-- Whether an address lies in the locked part of the instruction cache (R515). -/
def State.inLocked (s : State) (a : Word) : Bool :=
  match s.icache.locked with
  | none => false
  | some b => decide ((a - b.base).toNat < 4 * b.words.length)

/-- `interrupt_entry` (R514): taking an interrupt. It is indivisible (`62_tracing.md` R585): other
agents have no turn in it. The call-trace event and PFP.p follow the new TC and PC.te, also within a
window of R622 (DESIGN CHOICE, unsafe: log 21). -/
def State.enterInterrupt (s : State) (v : BitVec 8) (kind : InterruptKind) : State :=
  let entry := s.vectorEntry v kind
  let nfp := s.interruptFrame
  let s1 := { s with turns := [] }.newFrame s.ip nfp (s.tc.getLsbD 3) 7
  let s2 := ((s1.writeWord (nfp - 16) s.pctl).writeWord (nfp - 12) s.ac).writeWord (nfp - 8)
    (v.zeroExtend 32)
  let s3 := (s2.setPctl (interruptPctl s.pctl v)).saveMask kind
  let s4 := s3.signal (evCall &&& eventGate s3.tc) false s.ip
  { s4 with
    ip := alignTarget entry
    icache :=
      { s4.icache with fetchingLocked := entry.getLsbD 1 && s4.inLocked (alignTarget entry) } }

/-! The frame in which an instruction runs (`61_faults.md` R531). -/

/-- An instruction under way. -/
structure Run where
  /-- the state so far; `ip` is the address of the instruction that follows unless the instruction
  transfers control -/
  s : State
  /-- the TC mode bits that trace-event detection uses (R622): those at the start of the instruction,
  or those that `modtc` has written -/
  modes : Word
  /-- PC.te at the start, as trace-event detection uses it (R622) -/
  te : Bool
  /-- the event flags noted so far (R531 steps 2, 8, 11) -/
  noted : Word
  /-- a fault noted by executing (R531 step 10) -/
  post : Option FaultCode
  /-- PC to install after the events are signalled (`62_tracing.md` R581) -/
  late : Option Word
deriving DecidableEq, Repr

/-- Why an instruction does not execute. -/
inductive Stop where
  /-- a fault before execution (R531 steps 4 to 8) -/
  | trap (c : FaultCode)
  /-- the model stops -/
  | fault (f : Fault)
  /-- the model has no meaning -/
  | refuse (r : Refusal)
deriving DecidableEq, Repr

/-- Access types of a data breakpoint (`62_tracing.md` R572, R578). -/
inductive AccessKind where
  | load
  | store
  | fetch
  | implicit
deriving DecidableEq, Repr

/-- Whether a BPCON mode selects a type of access (R578). -/
def modeSelects (m : BitVec 2) : AccessKind → Bool
  | .store => true
  | .load => m != 0
  | .fetch => m.getLsbD 1
  | .implicit => m == 3

/-- The two-bit field of a word at a bit position. -/
def field2 (w : Word) (k : Fin 31) : BitVec 2 := w.extractLsb' k.val 2

/-- The flags of the data-address breakpoints that an access of n bytes matches (R578, D17). -/
def State.dataBreak (s : State) (modes a : Word) (n : Nat) (k : AccessKind) : Word :=
  if modes.getLsbD 7 then
    (if s.ctrl.bpcon.getLsbD Config.bpconEnable0.val &&
        modeSelects (field2 s.ctrl.bpcon Config.bpconMode0) k &&
        decide ((s.ctrl.dab0 - a).toNat < n) then evData0 else 0) |||
    (if s.ctrl.bpcon.getLsbD Config.bpconEnable1.val &&
        modeSelects (field2 s.ctrl.bpcon Config.bpconMode1) k &&
        decide ((s.ctrl.dab1 - a).toNat < n) then evData1 else 0)
  else 0

/-- The flags of the instruction-address breakpoints at an instruction's address (R583). -/
def State.fetchBreak (s : State) (modes : Word) : Word :=
  if modes.getLsbD 7 then
    (if s.ctrl.ipb0.getLsbD 0 && alignTarget s.ctrl.ipb0 == s.ip then evFetch0 else 0) |||
    (if s.ctrl.ipb1.getLsbD 0 && alignTarget s.ctrl.ipb1 == s.ip then evFetch1 else 0)
  else 0

/-- The TC mode bits in force: within the window of `modtc` the old ones or the new ones (R622). -/
def State.effectiveModes (s : State) (now : Word) : Word :=
  if s.trace.tcDelay.left != 0 && Config.freeBit s.draws then s.trace.tcDelay.old else now

/-- PC.te in force: within the window of `modpc` the old or the new one (R622). -/
def State.effectiveTe (s : State) (now : Bool) : Bool :=
  if s.trace.teDelay.left != 0 && Config.freeBit (s.draws + 1) then s.trace.teDelay.old else now

/-- One instruction of the windows of R622 is used up. -/
def State.ageWindows (s : State) : State :=
  if s.trace.tcDelay.left = 0 ∧ s.trace.teDelay.left = 0 then s
  else
    { s with
      draws := s.draws + 2
      trace :=
        { s.trace with
          tcDelay := { s.trace.tcDelay with left := s.trace.tcDelay.left - 1 }
          teDelay := { s.trace.teDelay with left := s.trace.teDelay.left - 1 } } }

/-- The start of an instruction of `len` bytes: breakpoint matches are noted (R531 step 2). -/
def State.begin (s : State) (len : Word) : Run where
  s := { s.ageWindows with ip := s.ip + len }
  modes := s.effectiveModes s.tc
  te := s.effectiveTe s.te
  noted := s.fetchBreak (s.effectiveModes s.tc) |||
    s.dataBreak (s.effectiveModes s.tc) s.ip len.toNat .fetch
  post := none
  late := none

/-- The events of an instruction that has executed, let through by the mode bits (R531 step 11). -/
def Run.events (r : Run) : Word := (r.noted ||| evInstruction) &&& eventGate r.modes

/-- The state after the events are signalled and, for a return from an interrupt or a fault, PC is
restored (R531 step 11; `62_tracing.md` R581). The trace enable that judges is the one that the
instruction leaves (R573) or, within the window of `modpc`, the one from before that `modpc`, also
where the instruction changes PC.te itself (DESIGN CHOICE: log 21). -/
def Run.signalled (r : Run) (s0 : State) : State :=
  let t := r.s.signal r.events (s0.effectiveTe r.s.te) s0.ip
  match r.late with
  | none => t
  | some w => t.setPctl w

/-- The end of an instruction (R531 steps 11 and 12). -/
def Run.finish (r : Run) (s0 : State) : Host.Outcome State Fault Refusal :=
  match r.post with
  | none => .next (r.signalled s0)
  | some c => takeFault s0 (r.signalled s0) c r.s.ip

/-- Run the body of an instruction of `len` bytes (R531 steps 4 to 12). -/
def runInstr (s : State) (len : Word) (body : Run → Except Stop Run) :
    Host.Outcome State Fault Refusal :=
  match body (s.begin len) with
  | .ok r => r.finish s
  | .error (.trap c) => takeFault s s c (s.ip + len)
  | .error (.fault f) => .fault f
  | .error (.refuse r) => .refused r

/-- Run a body whose operands pass the checks of R531 steps 5 and 6. -/
def runChecked (s : State) (len : Word) (us : List Use) (body : Run → Except Stop Run) :
    Host.Outcome State Fault Refusal :=
  match s.operandFault us with
  | some c => takeEarlyFault s c (s.ip + len)
  | none => runInstr s len body

/-! Small operations on an instruction under way. -/

/-- Note event flags. -/
def Run.note (r : Run) (flags : Word) : Run := { r with noted := r.noted ||| flags }

/-- Change the state. -/
def Run.modify (r : Run) (f : State → State) : Run := { r with s := f r.s }

/-- Write word k of a destination. -/
def Run.put (r : Run) (o : Operand) (k : Nat) (v : Word) : Run :=
  r.modify fun s => s.putValue o k v

/-- Set AC.cc. -/
def Run.setCc (r : Run) (c : BitVec 3) : Run := r.modify fun s => s.setCc c

/-- Integer overflow (`41_arithmetic.md` R262): AC.of if masked, else the fault after execution. -/
def Run.overflow (r : Run) (ov : Bool) : Run :=
  if ov then
    if r.s.om then r.modify fun s => { s with ac := putBit s.ac 8 true }
    else { r with post := some .integerOverflow }
  else r

/-- A control transfer: instructions come from the normal hierarchy again (`60_exceptions.md`
R515). -/
def Run.jump (r : Run) (target : Word) : Run :=
  r.modify fun s =>
    { s with ip := target, icache := { s.icache with fetchingLocked := false } }

/-- A taken branch (`43_compare_branch.md` R365). -/
def Run.branch (r : Run) (target : Word) : Run := (r.jump target).note evBranch

/-! Memory accesses of an instruction (`20_memory.md` R100). -/

/-- Alignment, then protection of a store, then breakpoint match (R100 steps 1 to 3). -/
def Run.access (r : Run) (a : Word) (n : Nat) (k : AccessKind) : Except Stop Run :=
  if a.toNat % naturalBoundary n ≠ 0 ∧ r.s.config.faultOnUnaligned = true then
    .error (.trap .unaligned)
  else if a.toNat % naturalBoundary n ≠ 0 ∧ r.s.bigEndian a = true then
    .error (.fault .unalignedBigEndian)
  else if k = .store ∧ r.s.em = false ∧ r.s.protectedRange a n = true then
    .error (.trap .typeMismatch)
  else .ok (r.note (r.s.dataBreak r.modes a n k))

/-- An access that the processor makes itself while it executes an instruction: no check, only the
breakpoint match of mode 11b (`20_memory.md` R125; `62_tracing.md` R578). -/
def Run.implicit (r : Run) (a : Word) (n : Nat) : Run :=
  r.note (r.s.dataBreak r.modes a n .implicit)

/-! Call and return (`44_call_return.md` R404, R408, R412). -/

/-- `call_action` (R404) with the spill check of D32. `base` is where the new frame may start. A spill
to memory is an implicit access; a set that goes to data RAM is none (DESIGN CHOICE: log 22). -/
def Run.callAction (r : Run) (target : Word) (rt : BitVec 3) (base : Word) : Except Stop Run :=
  let go (r : Run) : Run :=
    ((r.modify fun s => s.newFrame s.ip (roundUp16 base) (r.modes.getLsbD 3) rt).jump
      target).note evCall
  match r.s.spillFrame with
  | none => .ok (go r)
  | some f =>
    if r.s.em = false ∧ r.s.protectedRange f 64 = true then .error (.trap .typeMismatch)
    else .ok (go (r.implicit f 64))

/-- `supervisor_call` (R408): the supervisor stack pointer is read after the table entry. -/
def Run.supervisorCall (r : Run) (target : Word) : Except Stop Run :=
  if r.s.em then r.callAction target 0 r.s.sp
  else
    let ssp := r.s.turn.readWord (r.s.tables.sptBase + 12)
    let rt : BitVec 3 := if r.s.te then 3 else 2
    (((r.implicit (r.s.tables.sptBase + 12) 4).modify State.turn).modify fun s =>
      s.setPctl (putBit (putBit s.pctl 1 true) 0 (ssp.getLsbD 0))).callAction target rt
        (ssp &&& 0xFFFFFFFC)

/-- The part of `ret` common to all return types (R412): FP, the local registers and the IP of the
frame returned to. A reload from memory is an implicit access; a set that comes from data RAM is none
(DESIGN CHOICE: log 22). -/
def Run.leaveFrame (r : Run) : Run :=
  let frame := r.s.pfp &&& 0xFFFFFFF0
  let r1 := if r.s.rcache.isEmpty then r.implicit frame 64 else r
  let r2 := r1.modify fun s =>
    let s1 := (s.setReg 31 frame).restoreLocals frame
    { s1 with depth := s1.depth - 1 }
  (r2.jump (alignTarget (r2.s.getReg 2))).note evReturn

/-- Restore AC, and PC if in supervisor mode, from the record below the frame, two word requests
(`60_exceptions.md` R520; `61_faults.md` R552). -/
def Run.restoreControls (r : Run) : Run :=
  let r1 := (r.implicit (r.s.fp - 12) 4).modify fun s => { s with ac := r.s.readWord (r.s.fp - 12) }
  if r.s.em then
    { (r1.implicit (r.s.fp - 16) 4).modify State.turn with
      late := some (r.s.turn.readWord (r.s.fp - 16)) }
  else r1

/-- The return from an interrupt handler ends the service of an NMI if it leaves the NMI's frame
(`60_exceptions.md` R512, D39). -/
def State.endNmi (s : State) : State :=
  if s.intc.nmiDepth = some s.depth then { s with intc := { s.intc with nmiDepth := none } } else s

/-- The body of `ret` by return type (R412, R413). -/
def Run.returnAction (r : Run) : Except Stop Run :=
  match (r.s.pfp.extractLsb' 0 3).toNat with
  | 0 => .ok r.leaveFrame
  | 1 => .ok r.restoreControls.leaveFrame
  | 2 =>
    .ok ((r.modify fun s => s.setPctl (putBit (putBit s.pctl 1 false) 0 false)).leaveFrame.note
      evSupervisor)
  | 3 =>
    .ok ((r.modify fun s => s.setPctl (putBit (putBit s.pctl 1 false) 0 true)).leaveFrame.note
      evSupervisor)
  | 7 => .ok (r.restoreControls.modify State.endNmi).leaveFrame
  | _ => .error (.trap .unimplemented)

end Sys2Proof.Machine
end

