-- ==== Sys2Proof/Machine/Interrupts.lean ====
section
/-! DEFINITION. The interrupt controller: sampling the inputs, posting, the delivery test and the NMI
(`60_exceptions.md` R506 to R518, R522; `62_tracing.md` R585 steps 1 to 3). -/

namespace Sys2Proof.Machine

/-! Inputs (`62_tracing.md` R585 step 1). -/

/-- ICON.im (`10_state.md` R64). -/
def State.intMode (s : State) : BitVec 2 := s.ctrl.icon.extractLsb' 0 2

/-- The pins that are dedicated inputs in a mode (R509). In the mode 11b, which is not defined (U14),
none is: so no pin latches while an NMI keeps the stop at the delivery test away (DESIGN CHOICE,
unsafe: log 23). -/
def dedicatedPins (im : BitVec 2) : BitVec 8 :=
  match im.toNat with
  | 0 => 0xFF
  | 2 => 0xE0
  | _ => 0

/-- The dedicated pins that are detected: low for a level-detected pin, a fall from high to low for
an edge-detected one (R509, R522; log 28). -/
def State.detectedPins (s : State) (levels : BitVec 8) : BitVec 8 :=
  let edge := s.ctrl.icon.extractLsb' 2 8
  dedicatedPins s.intMode &&& ~~~levels &&& (~~~edge ||| s.intc.xint)

/-- Latch the inputs: detected pins and DMA requests set IPND bits, a fall of NMI is remembered
(R509, R512, D39). -/
def State.latch (s : State) (xint : BitVec 8) (nmi : Bool) (dma : BitVec 4) : State :=
  { s with
    intc :=
      { s.intc with
        ipnd := s.intc.ipnd ||| (s.detectedPins xint).zeroExtend 32 |||
          (dma.zeroExtend 32 <<< 8)
        nmiPending := s.intc.nmiPending || (s.intc.nmiPin && !nmi)
        xint := xint
        nmiPin := nmi } }

/-- The working status of a started channel changes (`47_dma.md` R481; log 38). -/
def State.agentStatus (s : State) (p : Fin 4 × Vector Word 8) : State :=
  if s.dma.started[p.1] then
    { s with dma := { s.dma with status := s.dma.status.set p.1 p.2 } }
  else s

/-- What the DMA controller and other bus masters do before a step (`47_dma.md` R481; with no
channel started the DMA controller does nothing). -/
def State.agentActs (s : State) (e : ExternalEvent) : State :=
  let s1 := e.writes.foldl State.agentWrite s
  let s2 := e.dmaStatus.foldl State.agentStatus s1
  { s2 with
    dma :=
      { s2.dma with
        dmac := if s.startedMask = 0 then s2.dma.dmac else e.dmac.getD s2.dma.dmac
        started := Vector.ofFn fun c => s2.dma.started.get c && !e.dmaStopped.getLsbD c.val } }

/-- External agents act (R585 step 1): the next input event, or the pins as they were (log 12). What
they write between the bus requests of the instruction comes with the event (log 40). -/
def State.sampleInputs (s : State) : State :=
  match s.intc.events with
  | [] => { s with turns := [] }.latch s.intc.xint s.intc.nmiPin 0
  | e :: rest =>
    ({ s with intc := { s.intc with events := rest }, turns := e.during }.agentActs e).latch e.xint
      e.nmi (e.dmaRequest &&& s.startedMask)

/-! Software requests (R503, R506, R511). -/

/-- Whether an interrupt of a priority may be taken (R501, R510). -/
def State.deliverable (s : State) (p : BitVec 5) : Bool := decide (s.priority < p) || p == 31

/-- The highest priority that a pending-priorities word shows, 0 if none (R511). -/
def highestPriority (w : Word) : BitVec 5 := BitVec.ofNat 5 ((topBitBelow w 32).getD 0)

/-- `check_pending_interrupts` (R511): the software-priority register is read from the table. -/
def State.checkPending (s : State) : State :=
  { s with
    intc := { s.intc with swPriority := highestPriority (s.readWord s.tables.intTableBase) } }

/-- The address of the pending-interrupts byte of a priority (R503). -/
def State.pendingByte (s : State) (p : BitVec 5) : Word :=
  s.tables.intTableBase + 4 + p.zeroExtend 32

/-- Other agents' turn while the interrupt table is locked: they leave the table, 1028 bytes (R503,
R506), and the whole aligned 16-byte block of its first word, the locked one (`20_memory.md` R123), which
begins below the table where the base is no multiple of 16. -/
def State.tableTurn (s : State) : State :=
  s.lockedTurn (s.tables.intTableBase &&& 0xFFFFFFF0) (1028 + s.tables.intTableBase.toNat % 16)

/-- `post_in_table` (R506): one locked operation of four requests. -/
def State.postInTable (s : State) (v : BitVec 8) : State :=
  let p : BitVec 5 := v.extractLsb' 3 5
  let x := s.readWord s.tables.intTableBase
  let s1 := s.tableTurn
  let z := s1.readByte (s.pendingByte p)
  let s2 := s1.tableTurn.writeByte (s.pendingByte p) (z ||| (1#8 <<< (v.toNat % 8)))
  s2.tableTurn.writeWord s.tables.intTableBase (putBit x p.toNat true)

/-- What the delivery test comes to. -/
inductive Delivery where
  /-- an interrupt was taken -/
  | entered (s : State)
  /-- none was taken -/
  | quiet (s : State)
deriving DecidableEq, Repr

/-- The largest bit number of a byte whose bit is set. -/
def topBitOfByte (z : Byte) : Option Nat := topBitBelow (z.zeroExtend 32) 8

/-- Take a software interrupt (R511, D40), indivisibly (`62_tracing.md` R585): the table in memory
decides, deliverability is tested before any bit is cleared, and the priority bit goes with the last
vector of its priority. -/
def State.takeSoftware (s : State) : Delivery :=
  let w := s.readWord s.tables.intTableBase
  let n := highestPriority w
  if n = 0 then .quiet s.checkPending
  else if s.deliverable n = false then .quiet s.checkPending
  else
    let z := s.readByte (s.pendingByte n)
    match topBitOfByte z with
    | none =>
      .quiet (s.writeWord s.tables.intTableBase (putBit w n.toNat false)).checkPending
    | some b =>
      let z' := z &&& ~~~(1#8 <<< b)
      let s1 := s.writeByte (s.pendingByte n) z'
      let s2 := if z' = 0 then
        s1.writeWord s.tables.intTableBase (putBit w n.toNat false) else s1
      .entered (s2.checkPending.enterInterrupt (n ++ BitVec.ofNat 3 b : BitVec 8) .software)

/-! Hardware requests (R509, R510, R516). -/

/-- The effective mask: ICON.gie = 1 works as a cleared IMSK (R509). -/
def State.effectiveMask (s : State) : Word := if s.ctrl.icon.getLsbD 10 then 0 else s.intc.imsk

/-- The IMAP field of source k: pins 0 to 7, DMA channels 8 to 11 (`10_state.md` R63). -/
def State.mapField (s : State) (k : Nat) : BitVec 4 :=
  if k < 4 then s.ctrl.imap0.extractLsb' (4 * k) 4
  else if k < 8 then s.ctrl.imap1.extractLsb' (4 * (k - 4)) 4
  else s.ctrl.imap2.extractLsb' (4 * (k - 8)) 4

/-- The vector of a dedicated source: PPPP0010b (R509). -/
def State.dedicatedVector (s : State) (k : Nat) : BitVec 8 := s.mapField k ++ 2#4

/-- Whether source k is dedicated in the mode (R509, D38). -/
def State.isDedicated (s : State) (k : Nat) : Bool :=
  decide (8 ≤ k) || (dedicatedPins s.intMode).getLsbD k

/-- A dedicated source that requests service; a source mapped to 0000b never does (R509, U12). -/
def State.requests (s : State) (k : Nat) : Bool :=
  s.isDedicated k && s.intc.ipnd.getLsbD k && s.effectiveMask.getLsbD k && s.mapField k != 0

/-- The dedicated sources that request service. -/
def State.sources (s : State) : List Nat := (List.range 12).filter s.requests

/-- The vector on the expanded-mode pins, 0 for none (R509). -/
def State.pinVector (s : State) : BitVec 8 :=
  match s.intMode.toNat with
  | 1 => ~~~s.intc.xint
  | 2 => ((~~~s.intc.xint &&& 0x1F) <<< 3) ||| 2
  | _ => 0

/-- The expanded-mode request, 0 for none: vectors 0 to 7 are ignored, IMSK bit 0 masks it (R509). -/
def State.expandedVector (s : State) : BitVec 8 :=
  if s.effectiveMask.getLsbD 0 && decide (8 ≤ s.pinVector) then s.pinVector else 0

/-- The highest vector number of the hardware candidates, 0 for none (R510). -/
def State.hardwareVector (s : State) : BitVec 8 :=
  (s.sources.map s.dedicatedVector).foldl (fun m v => if m < v then v else m) s.expandedVector

/-- Clear the IPND bit of the highest-numbered source that requests the vector (R516, D38). -/
def State.clearRequest (s : State) (v : BitVec 8) : State :=
  match (s.sources.filter fun k => s.dedicatedVector k == v).getLast? with
  | some k => { s with intc := { s.intc with ipnd := putBit s.intc.ipnd k false } }
  | none => s

/-- Take a hardware interrupt (R516, R517): it counts as expanded if the pins request the vector. -/
def State.takeHardware (s : State) (v : BitVec 8) : State :=
  (s.clearRequest v).enterInterrupt v (if s.expandedVector = v then .expanded else .dedicated)

/-- The hardware candidate goes before the posted software interrupt (R510). -/
def hardwareFirst (hp sp : BitVec 5) : Bool :=
  sp == 0 || decide (sp < hp) || (hp == sp && hp != 31)

/-- The delivery test (R510), with no NMI in service. -/
def State.deliver (s : State) : Delivery :=
  let hv := s.hardwareVector
  let hp : BitVec 5 := hv.extractLsb' 3 5
  let sp := s.intc.swPriority
  if hv != 0 && s.deliverable hp && hardwareFirst hp sp then .entered (s.takeHardware hv)
  else if sp != 0 && s.deliverable sp then s.takeSoftware
  else .quiet s

/-! The NMI (R512, D39). -/

/-- The NMI is to be taken: pending and not in service. -/
def State.nmiReady (s : State) : Bool := s.intc.nmiPending && s.intc.nmiDepth.isNone

/-- Take the NMI: vector 248; the depth of the handler's frame marks it as in service. -/
def State.takeNmi (s : State) : State :=
  let t := { s with intc := { s.intc with nmiPending := false } }.enterInterrupt 248 .nmi
  { t with intc := { t.intc with nmiDepth := some t.depth } }

end Sys2Proof.Machine
end

