-- ==== Sys2Proof/Machine/Forms.lean ====
section
/-! DEFINITION. The shapes that many meanings share: operands checked, values computed from the state
before the instruction, results written. Each takes what is particular to one instruction as an
argument (`40_data_movement.md` to `45_fault_debug.md`). -/

namespace Sys2Proof.Machine

/-- `f src, dst`. -/
def unaryForm (s : State) (src : Src) (dst : Dst) (f : Word → Word) :
    Host.Outcome State Fault Refusal :=
  runChecked s 4 [(srcOperand src).one, (dstOperand dst).one] fun r =>
    .ok (r.put (dstOperand dst) 0 (f (s.value (srcOperand src) 0)))

/-- `f src, dst` with a condition code. -/
def unaryCodeForm (s : State) (src : Src) (dst : Dst) (f : Word → Word × BitVec 3) :
    Host.Outcome State Fault Refusal :=
  runChecked s 4 [(srcOperand src).one, (dstOperand dst).one] fun r =>
    let v := f (s.value (srcOperand src) 0)
    .ok ((r.put (dstOperand dst) 0 v.1).setCc v.2)

/-- `f src1, src2, dst`. -/
def binaryForm (s : State) (src1 src2 : Src) (dst : Dst) (f : Word → Word → Word) :
    Host.Outcome State Fault Refusal :=
  runChecked s 4 [(srcOperand src1).one, (srcOperand src2).one, (dstOperand dst).one] fun r =>
    .ok (r.put (dstOperand dst) 0 (f (s.value (srcOperand src1) 0) (s.value (srcOperand src2) 0)))

/-- `f src1, src2, dst` with integer overflow (`41_arithmetic.md` R262). -/
def integerForm (s : State) (src1 src2 : Src) (dst : Dst) (f : Word → Word → Word × Bool) :
    Host.Outcome State Fault Refusal :=
  runChecked s 4 [(srcOperand src1).one, (srcOperand src2).one, (dstOperand dst).one] fun r =>
    let v := f (s.value (srcOperand src1) 0) (s.value (srcOperand src2) 0)
    .ok ((r.put (dstOperand dst) 0 v.1).overflow v.2)

/-- A division `f src1, src2, dst` by src1, with the zero-divide check (R263). -/
def divideForm (s : State) (src1 src2 : Src) (dst : Dst) (f : Word → Word → Word × Bool) :
    Host.Outcome State Fault Refusal :=
  runChecked s 4 [(srcOperand src1).one, (srcOperand src2).one, (dstOperand dst).one] fun r =>
    if s.value (srcOperand src1) 0 = 0 then .error (.trap .zeroDivide)
    else
      let v := f (s.value (srcOperand src1) 0) (s.value (srcOperand src2) 0)
      .ok ((r.put (dstOperand dst) 0 v.1).overflow v.2)

/-- Add or subtract with carry: the carry in is AC.cc bit 1 (R268, R271). -/
def carryForm (s : State) (src1 src2 : Src) (dst : Dst) (sum : Word → Word → Bool → Word × Bool)
    (overflow : Word → Word → Bool → Bool) : Host.Outcome State Fault Refusal :=
  runChecked s 4 [(srcOperand src1).one, (srcOperand src2).one, (dstOperand dst).one] fun r =>
    let x := s.value (srcOperand src1) 0
    let y := s.value (srcOperand src2) 0
    let cin := s.cc.getLsbD 1
    .ok ((r.put (dstOperand dst) 0 (sum x y cin).1).setCc
      (carryCode (sum x y cin).2 (overflow x y cin)))

/-- An instruction on two sources that only sets the condition code. -/
def codeForm (s : State) (src1 src2 : Src) (f : Word → Word → BitVec 3) :
    Host.Outcome State Fault Refusal :=
  runChecked s 4 [(srcOperand src1).one, (srcOperand src2).one] fun r =>
    .ok (r.setCc (f (s.value (srcOperand src1) 0) (s.value (srcOperand src2) 0)))

/-- Compare and increment or decrement (`43_compare_branch.md` R345 to R348). -/
def compareStepForm (s : State) (src1 src2 : Src) (dst : Dst) (cmp : Word → Word → BitVec 3)
    (step : Word → Word) : Host.Outcome State Fault Refusal :=
  runChecked s 4 [(srcOperand src1).one, (srcOperand src2).one, (dstOperand dst).one] fun r =>
    let x := s.value (srcOperand src1) 0
    let y := s.value (srcOperand src2) 0
    .ok ((r.put (dstOperand dst) 0 (step y)).setCc (cmp x y))

/-- `modify` and `extract`: the src/dst register is read and written (`42_logical_bit.md` R325,
R326). -/
def updateForm (s : State) (src1 src2 : Src) (dst : Upd) (f : Word → Word → Word → Word) :
    Host.Outcome State Fault Refusal :=
  runChecked s 4 [(srcOperand src1).one, (srcOperand src2).one, (updOperand dst).one] fun r =>
    .ok (r.put (updOperand dst) 0
      (f (s.value (srcOperand src1) 0) (s.value (srcOperand src2) 0)
        (s.value (updOperand dst) 0)))

/-- Put the words of a list into consecutive registers of a destination. -/
def Run.putAll (r : Run) (o : Operand) (k : Nat) : List Word → Run
  | [] => r
  | w :: ws => (r.put o k w).putAll o (k + 1) ws

/-- A move of `width` words (`40_data_movement.md` R240 to R243): all sources are read first. -/
def moveForm (s : State) (src : Src) (dst : Dst) (width align : Nat) :
    Host.Outcome State Fault Refusal :=
  runChecked s 4 [⟨srcOperand src, width, align⟩, ⟨dstOperand dst, width, align⟩] fun r =>
    .ok (r.putAll (dstOperand dst) 0 ((List.range width).map (s.value (srcOperand src))))

/-- `test<cc> dst` (`43_compare_branch.md` R350). -/
def testForm (s : State) (dst : Upd) (mask : BitVec 3) : Host.Outcome State Fault Refusal :=
  runChecked s 4 [(updOperand dst).one] fun r =>
    .ok (r.put (updOperand dst) 0 (if conditionHolds mask s.cc then 1 else 0))

/-- A branch taken on a condition (R388, R371). -/
def Run.branchIf (r : Run) (taken : Bool) (target : Word) : Run :=
  if taken then r.branch target else r

/-- `b<cc> targ` (R388). -/
def conditionBranchForm (s : State) (mask : BitVec 3) (disp : BitVec 22) :
    Host.Outcome State Fault Refusal :=
  runInstr s 4 fun r => .ok (r.branchIf (conditionHolds mask s.cc) (s.ip + ctrlOffset disp))

/-- `cmpob<cc>` and `cmpib<cc>` (R370, R371): the comparison sets the condition code, the mask
decides. -/
def compareBranchForm (s : State) (src1 : CSrc1) (src2 : CSrc2) (disp : BitVec 11)
    (cmp : Word → Word → BitVec 3) (mask : BitVec 3) : Host.Outcome State Fault Refusal :=
  runChecked s 4 [(csrc1Operand src1).one, (csrc2Operand src2).one] fun r =>
    let c := cmp (s.value (csrc1Operand src1) 0) (s.value (csrc2Operand src2) 0)
    .ok ((r.setCc c).branchIf ((mask &&& c) != 0) (s.ip + cobrOffset disp))

/-- `bbc` and `bbs` (R372, R373): the branch is taken when the bit has the wanted value, and the
condition code says so. -/
def bitBranchForm (s : State) (src1 : CSrc1) (src2 : CSrc2) (disp : BitVec 11) (want : Bool) :
    Host.Outcome State Fault Refusal :=
  runChecked s 4 [(csrc1Operand src1).one, (csrc2Operand src2).one] fun r =>
    let taken := bitAt (s.value (csrc1Operand src1) 0) (s.value (csrc2Operand src2) 0) == want
    .ok ((r.setCc (truthCode taken)).branchIf taken (s.ip + cobrOffset disp))

/-- The call-trace event of `bal` and `balx` marks the current frame (R365; `62_tracing.md` R576). -/
def Run.link (r : Run) : Run :=
  if r.modes.getLsbD 3 then
    (r.modify fun s => s.setReg 0 (putBit (s.getReg 0) 3 true)).note evCall
  else r

/-- `fault<cc>` (`45_fault_debug.md` R441). -/
def conditionFaultForm (s : State) (mask : BitVec 3) : Host.Outcome State Fault Refusal :=
  runInstr s 4 fun r =>
    .ok (if conditionHolds mask s.cc then { r with post := some .constraintRange } else r)

/-! Loads and stores: the bytes of an access, in the order of their addresses, become a value or come
from one. -/

/-- A byte as read. -/
def byteOf : List Byte → Byte
  | b :: _ => b
  | [] => 0

/-- A 16-bit value as read. -/
def halfOf (be : Bool) : List Byte → BitVec 16
  | b0 :: b1 :: _ => halfOfBytes be b0 b1
  | _ => 0

/-- A word as read. -/
def wordOf (be : Bool) : List Byte → Word
  | b0 :: b1 :: b2 :: b3 :: _ => wordOfMem be b0 b1 b2 b3
  | _ => 0

/-- A load of one value of `n` bytes (`40_data_movement.md` R220). -/
def loadForm (s : State) (efa : Efa) (dst : RegNum) (n : Nat) (value : Bool → List Byte → Word) :
    Host.Outcome State Fault Refusal :=
  runChecked s efa.len [(Operand.reg dst).one] fun r => do
    let a := s.address s.ip efa
    let r1 ← r.access a n .load
    let got := r1.s.readRequests a n 0 n
    .ok ((r1.modify fun _ => got.2).put (.reg dst) 0 (value (s.bigEndian a) got.1))

/-- A load of a register group of `width` words (R221, R227 to R229). -/
def loadGroupForm (s : State) (efa : Efa) (dst : RegNum) (width align : Nat) :
    Host.Outcome State Fault Refusal :=
  runChecked s efa.len [⟨.reg dst, width, align⟩] fun r => do
    let a := s.address s.ip efa
    let r1 ← r.access a (4 * width) .load
    let got := r1.s.readRequests a (4 * width) 0 (4 * width)
    .ok ((r1.modify fun _ => got.2).putAll (.reg dst) 0 (s.wordsOf a got.1))

/-- A store of one value of `n` bytes (R220). -/
def storeForm (s : State) (src : RegNum) (efa : Efa) (n : Nat) (bytes : Bool → Word → List Byte) :
    Host.Outcome State Fault Refusal :=
  runChecked s efa.len [(Operand.reg src).one] fun r => do
    let a := s.address s.ip efa
    let r1 ← r.access a n .store
    .ok (r1.modify fun t => t.writeRequests a n 0 (bytes (s.bigEndian a) (s.getReg src)))

/-- A store of an integer that may not fit: the bytes are written, then overflow (R234, R235); other
agents have a turn between the store and the accesses of a fault. -/
def storeIntegerForm (s : State) (src : RegNum) (efa : Efa) (n : Nat)
    (bytes : Bool → Word → List Byte) (fits : Word → Bool) : Host.Outcome State Fault Refusal :=
  runChecked s efa.len [(Operand.reg src).one] fun r => do
    let a := s.address s.ip efa
    let r1 ← r.access a n .store
    let r2 := (r1.modify fun t =>
      t.writeRequests a n 0 (bytes (s.bigEndian a) (s.getReg src))).overflow (!fits (s.getReg src))
    .ok (if r2.post = none then r2 else r2.modify State.turn)

/-- A store of a register group of `width` words (R221, R236 to R238). -/
def storeGroupForm (s : State) (src : RegNum) (efa : Efa) (width align : Nat) :
    Host.Outcome State Fault Refusal :=
  runChecked s efa.len [⟨.reg src, width, align⟩] fun r => do
    let a := s.address s.ip efa
    let r1 ← r.access a (4 * width) .store
    .ok (r1.modify fun t =>
      t.writeRequests a (4 * width) 0
        (s.bytesOf a ((List.range width).map (s.value (.reg src)))))

end Sys2Proof.Machine
end

