-- ==== Sys2Proof/Machine/Arithmetic.lean ====
section
/-! DEFINITION. Arithmetic, shifts and rotates (`41_arithmetic.md` R266 to R289). -/

namespace Sys2Proof.Machine

/-- `addo` (R266). -/
def execAddo (src1 src2 : Src) (dst : Dst) (s : State) :
    Host.Outcome State Fault Refusal :=
  binaryForm s src1 src2 dst fun x y => y + x

/-- `addi` (R267). -/
def execAddi (src1 src2 : Src) (dst : Dst) (s : State) :
    Host.Outcome State Fault Refusal :=
  integerForm s src1 src2 dst addInteger

/-- `addc` (R268). -/
def execAddc (src1 src2 : Src) (dst : Dst) (s : State) :
    Host.Outcome State Fault Refusal :=
  carryForm s src1 src2 dst addCarry addOverflow

/-- `subo` (R269). -/
def execSubo (src1 src2 : Src) (dst : Dst) (s : State) :
    Host.Outcome State Fault Refusal :=
  binaryForm s src1 src2 dst fun x y => y - x

/-- `subi` (R270). -/
def execSubi (src1 src2 : Src) (dst : Dst) (s : State) :
    Host.Outcome State Fault Refusal :=
  integerForm s src1 src2 dst subInteger

/-- `subc` (R271). -/
def execSubc (src1 src2 : Src) (dst : Dst) (s : State) :
    Host.Outcome State Fault Refusal :=
  carryForm s src1 src2 dst subCarry subOverflow

/-- `mulo` (R272). -/
def execMulo (src1 src2 : Src) (dst : Dst) (s : State) :
    Host.Outcome State Fault Refusal :=
  binaryForm s src1 src2 dst fun x y => y * x

/-- `muli` (R273). -/
def execMuli (src1 src2 : Src) (dst : Dst) (s : State) :
    Host.Outcome State Fault Refusal :=
  integerForm s src1 src2 dst mulInteger

/-- `emul` (R274): the 64-bit product, low word first. -/
def execEmul (src1 src2 : Src) (dst : Dst) (s : State) :
    Host.Outcome State Fault Refusal :=
  runChecked s 4 [(srcOperand src1).one, (srcOperand src2).one, (dstOperand dst).two] fun r =>
    let p := (s.value (srcOperand src2) 0).toNat * (s.value (srcOperand src1) 0).toNat
    .ok (r.putAll (dstOperand dst) 0 [BitVec.ofNat 32 p, BitVec.ofNat 32 (p / 2 ^ 32)])

/-- `divo` (R275). -/
def execDivo (src1 src2 : Src) (dst : Dst) (s : State) :
    Host.Outcome State Fault Refusal :=
  divideForm s src1 src2 dst fun x y => (divOrdinal x y, false)

/-- `divi` (R276). -/
def execDivi (src1 src2 : Src) (dst : Dst) (s : State) :
    Host.Outcome State Fault Refusal :=
  divideForm s src1 src2 dst divInteger

/-- `remo` (R277). -/
def execRemo (src1 src2 : Src) (dst : Dst) (s : State) :
    Host.Outcome State Fault Refusal :=
  divideForm s src1 src2 dst fun x y => (remOrdinal x y, false)

/-- `remi` (R278). -/
def execRemi (src1 src2 : Src) (dst : Dst) (s : State) :
    Host.Outcome State Fault Refusal :=
  divideForm s src1 src2 dst remInteger

/-- `modi` (R279). -/
def execModi (src1 src2 : Src) (dst : Dst) (s : State) :
    Host.Outcome State Fault Refusal :=
  divideForm s src1 src2 dst fun x y => (modInteger x y, false)

/-- The two words that `ediv` writes, remainder first (R280): free values if the quotient does not
fit 32 bits (U2, log 6). -/
def edivWords (d : Word) (n draws : Nat) : List Word :=
  if n / d.toNat < 2 ^ 32 then [BitVec.ofNat 32 (n % d.toNat), BitVec.ofNat 32 (n / d.toNat)]
  else [Config.freeWord draws, Config.freeWord (draws + 1)]

/-- `ediv` (R280). -/
def execEdiv (src1 src2 : Src) (dst : Dst) (s : State) :
    Host.Outcome State Fault Refusal :=
  runChecked s 4 [(srcOperand src1).one, (srcOperand src2).two, (dstOperand dst).two] fun r =>
    let x := s.value (srcOperand src1) 0
    if x = 0 then .error (.trap .zeroDivide)
    else
      let n := longOrdinal (s.value (srcOperand src2) 0) (s.value (srcOperand src2) 1)
      let r1 := r.putAll (dstOperand dst) 0 (edivWords x n r.s.draws)
      .ok (if n / x.toNat < 2 ^ 32 then r1
        else r1.modify fun t => { t with draws := t.draws + 2 })

/-- `shlo` (R282). -/
def execShlo (src1 src2 : Src) (dst : Dst) (s : State) :
    Host.Outcome State Fault Refusal :=
  binaryForm s src1 src2 dst shiftLeftOrdinal

/-- `shro` (R283). -/
def execShro (src1 src2 : Src) (dst : Dst) (s : State) :
    Host.Outcome State Fault Refusal :=
  binaryForm s src1 src2 dst shiftRightOrdinal

/-- `shli` (R284). -/
def execShli (src1 src2 : Src) (dst : Dst) (s : State) :
    Host.Outcome State Fault Refusal :=
  integerForm s src1 src2 dst shiftLeftInteger

/-- `shri` (R285). -/
def execShri (src1 src2 : Src) (dst : Dst) (s : State) :
    Host.Outcome State Fault Refusal :=
  binaryForm s src1 src2 dst shiftRightInteger

/-- `shrdi` (R286). -/
def execShrdi (src1 src2 : Src) (dst : Dst) (s : State) :
    Host.Outcome State Fault Refusal :=
  binaryForm s src1 src2 dst shiftRightDividing

/-- `rotate` (R288). -/
def execRotate (src1 src2 : Src) (dst : Dst) (s : State) :
    Host.Outcome State Fault Refusal :=
  binaryForm s src1 src2 dst rotateLeft

/-- `eshro` (R289). -/
def execEshro (src1 src2 : Src) (dst : Dst) (s : State) :
    Host.Outcome State Fault Refusal :=
  runChecked s 4 [(srcOperand src1).one, (srcOperand src2).two, (dstOperand dst).one] fun r =>
    .ok (r.put (dstOperand dst) 0
      (shiftRightExtended (s.value (srcOperand src1) 0) (s.value (srcOperand src2) 0)
        (s.value (srcOperand src2) 1)))


end Sys2Proof.Machine
end

