-- ==== Sys2Proof/Machine/CallReturn.lean ====
section
/-! DEFINITION. Calls, returns and `flushreg` (`44_call_return.md` R409 to R416). -/

namespace Sys2Proof.Machine

/-- `call` (R409). -/
def execCall (disp : BitVec 22) (_t : Bool) (s : State) :
    Host.Outcome State Fault Refusal :=
  runInstr s 4 fun r => r.callAction (s.ip + ctrlOffset disp) 0 s.sp

/-- `callx` (R410): the target is computed from the registers of the caller. -/
def execCallx (efa : Efa) (s : State) :
    Host.Outcome State Fault Refusal :=
  runInstr s efa.len fun r => r.callAction (alignTarget (s.address s.ip efa)) 0 s.sp

/-- `calls` through entry n of the system-procedure table (R411): a type-10b entry is a supervisor
call and notes a supervisor-trace event (`62_tracing.md` R577). -/
def Run.callSystem (r : Run) (n : Word) : Except Stop Run :=
  let a := r.s.procedureEntry n
  let entry := r.s.readWord a
  let r1 := r.implicit a 4
  if entry.getLsbD 1 then (r1.note evSupervisor).supervisorCall (alignTarget entry)
  else r1.callAction (alignTarget entry) 0 r1.s.sp

/-- `calls` (R411). -/
def execCalls (src : Src) (s : State) :
    Host.Outcome State Fault Refusal :=
  runChecked s 4 [(srcOperand src).one] fun r =>
    if 259 < (s.value (srcOperand src) 0).toNat then .error (.trap .length)
    else r.callSystem (s.value (srcOperand src) 0)

/-- A prereturn-trace event is due (`62_tracing.md` R576). -/
def State.prereturnDue (s : State) : Bool :=
  s.pfp.getLsbD 3 && (s.effectiveModes s.tc).getLsbD 5

/-- The prereturn-trace fault (R576, D49): taken before the `ret`, which is its RIP and runs again
afterwards; the flag in r0 is cleared; the fault IP is a free value. The entry belongs to the indivisible
step 6 of R585: other agents have no turn in it. -/
def State.prereturnFault (s : State) : Host.Outcome State Fault Refusal :=
  faultOutcome
    ({ (s.setReg 0 (putBit s.pfp 3 false)) with
        tc := s.tc ||| evPrereturn
        turns := []
        draws := s.draws + 3 }.traceFault (Config.freeWord (s.draws + 2)))

/-- The return type in r0 is a reserved one (R413). -/
def State.reservedReturn (s : State) : Bool :=
  s.pfp.extractLsb' 0 3 == 4 || s.pfp.extractLsb' 0 3 == 5 || s.pfp.extractLsb' 0 3 == 6

/-- `ret` once the prereturn test is done (R585 step 7). The fault of a reserved return type takes the
free value of its return address after those of the windows of R622, which the prereturn test used. -/
def State.runReturn (s : State) : Host.Outcome State Fault Refusal :=
  if s.reservedReturn then
    takeFault s { s with draws := s.ageWindows.draws } .unimplemented (s.ip + 4)
  else runInstr s 4 Run.returnAction

/-- `ret` (R412): the prereturn test comes first (`62_tracing.md` R585 step 6). With trace enable clear
the event only sets TC.pf, at once, and the `ret` goes on (R576). -/
def execRet (s : State) :
    Host.Outcome State Fault Refusal :=
  if s.prereturnDue then
    if s.effectiveTe s.te then s.prereturnFault
    else { s with tc := s.tc ||| evPrereturn }.runReturn
  else s.runReturn

/-- Note the implicit writes of the cached sets (`62_tracing.md` R578). -/
def Run.noteFrames (r : Run) : List SavedSet → Run
  | [] => r
  | c :: cs => (r.implicit c.frame 64).noteFrames cs

/-- `flushreg` (R416, D32). All cached sets are read before the first is written (DESIGN CHOICE, unsafe:
log 16). -/
def execFlushreg (s : State) :
    Host.Outcome State Fault Refusal :=
  runInstr s 4 fun r =>
    if s.em = false ∧ s.rcache.any (fun c => s.protectedRange c.frame 64) = true then
      .error (.trap .typeMismatch)
    else
      .ok ((r.noteFrames s.rcache).modify fun t =>
        { t.flushSets t.cachedSets with rcache := [] })


end Sys2Proof.Machine
end

