-- ==== Sys2Proof/Machine/CompareBranch.lean ====
section
/-! DEFINITION. Comparisons, tests and branches (`43_compare_branch.md` R340 to R396). -/

namespace Sys2Proof.Machine

/-- `cmpo` (R341). -/
def execCmpo (src1 src2 : Src) (s : State) :
    Host.Outcome State Fault Refusal :=
  codeForm s src1 src2 compareOrdinal

/-- `cmpi` (R342). -/
def execCmpi (src1 src2 : Src) (s : State) :
    Host.Outcome State Fault Refusal :=
  codeForm s src1 src2 compareInteger

/-- The condition code of a conditional compare (R343): unchanged if its bit 2 is 1. -/
def conditionalCode (cc : BitVec 3) (notGreater : Bool) : BitVec 3 :=
  if cc.getLsbD 2 then cc else if notGreater then 2 else 1

/-- `concmpo` (R343). -/
def execConcmpo (src1 src2 : Src) (s : State) :
    Host.Outcome State Fault Refusal :=
  codeForm s src1 src2 fun x y => conditionalCode s.cc (decide (x.toNat ≤ y.toNat))

/-- `concmpi` (R344). -/
def execConcmpi (src1 src2 : Src) (s : State) :
    Host.Outcome State Fault Refusal :=
  codeForm s src1 src2 fun x y => conditionalCode s.cc (decide (x.toInt ≤ y.toInt))

/-- `cmpinco` (R345). -/
def execCmpinco (src1 src2 : Src) (dst : Dst) (s : State) :
    Host.Outcome State Fault Refusal :=
  compareStepForm s src1 src2 dst compareOrdinal fun y => y + 1

/-- `cmpinci` (R346). -/
def execCmpinci (src1 src2 : Src) (dst : Dst) (s : State) :
    Host.Outcome State Fault Refusal :=
  compareStepForm s src1 src2 dst compareInteger fun y => y + 1

/-- `cmpdeco` (R347). -/
def execCmpdeco (src1 src2 : Src) (dst : Dst) (s : State) :
    Host.Outcome State Fault Refusal :=
  compareStepForm s src1 src2 dst compareOrdinal fun y => y - 1

/-- `cmpdeci` (R348). -/
def execCmpdeci (src1 src2 : Src) (dst : Dst) (s : State) :
    Host.Outcome State Fault Refusal :=
  compareStepForm s src1 src2 dst compareInteger fun y => y - 1

/-- `testno` (R351). -/
def execTestno (dst : Upd) (s : State) :
    Host.Outcome State Fault Refusal :=
  testForm s dst 0

/-- `testg` (R352). -/
def execTestg (dst : Upd) (s : State) :
    Host.Outcome State Fault Refusal :=
  testForm s dst 1

/-- `teste` (R353). -/
def execTeste (dst : Upd) (s : State) :
    Host.Outcome State Fault Refusal :=
  testForm s dst 2

/-- `testge` (R354). -/
def execTestge (dst : Upd) (s : State) :
    Host.Outcome State Fault Refusal :=
  testForm s dst 3

/-- `testl` (R355). -/
def execTestl (dst : Upd) (s : State) :
    Host.Outcome State Fault Refusal :=
  testForm s dst 4

/-- `testne` (R356). -/
def execTestne (dst : Upd) (s : State) :
    Host.Outcome State Fault Refusal :=
  testForm s dst 5

/-- `testle` (R357). -/
def execTestle (dst : Upd) (s : State) :
    Host.Outcome State Fault Refusal :=
  testForm s dst 6

/-- `testo` (R358). -/
def execTesto (dst : Upd) (s : State) :
    Host.Outcome State Fault Refusal :=
  testForm s dst 7

/-- `b` (R361). -/
def execB (disp : BitVec 22) (_t : Bool) (s : State) :
    Host.Outcome State Fault Refusal :=
  runInstr s 4 fun r => .ok (r.branch (s.ip + ctrlOffset disp))

/-- `bx` (R362). -/
def execBx (efa : Efa) (s : State) :
    Host.Outcome State Fault Refusal :=
  runInstr s efa.len fun r => .ok (r.branch (alignTarget (s.address s.ip efa)))

/-- `bal` (R363): the return address goes to g14. -/
def execBal (disp : BitVec 22) (_t : Bool) (s : State) :
    Host.Outcome State Fault Refusal :=
  runInstr s 4 fun r =>
    .ok (((r.put (.reg 30) 0 (s.ip + 4)).link).jump (s.ip + ctrlOffset disp))

/-- `balx` (R364): the target is computed before dst is written. -/
def execBalx (efa : Efa) (dst : RegNum) (s : State) :
    Host.Outcome State Fault Refusal :=
  runChecked s efa.len [(Operand.reg dst).one] fun r =>
    .ok (((r.put (.reg dst) 0 (s.ip + efa.len)).link).jump (alignTarget (s.address s.ip efa)))

/-- `bbc` (R372). -/
def execBbc (src1 : CSrc1) (src2 : CSrc2) (disp : BitVec 11) (_t : Bool) (s : State) :
    Host.Outcome State Fault Refusal :=
  bitBranchForm s src1 src2 disp false

/-- `bbs` (R373). -/
def execBbs (src1 : CSrc1) (src2 : CSrc2) (disp : BitVec 11) (_t : Bool) (s : State) :
    Host.Outcome State Fault Refusal :=
  bitBranchForm s src1 src2 disp true

/-- `cmpobg` (R374). -/
def execCmpobg (src1 : CSrc1) (src2 : CSrc2) (disp : BitVec 11) (_t : Bool) (s : State) :
    Host.Outcome State Fault Refusal :=
  compareBranchForm s src1 src2 disp compareOrdinal 1

/-- `cmpobe` (R375). -/
def execCmpobe (src1 : CSrc1) (src2 : CSrc2) (disp : BitVec 11) (_t : Bool) (s : State) :
    Host.Outcome State Fault Refusal :=
  compareBranchForm s src1 src2 disp compareOrdinal 2

/-- `cmpobge` (R376). -/
def execCmpobge (src1 : CSrc1) (src2 : CSrc2) (disp : BitVec 11) (_t : Bool) (s : State) :
    Host.Outcome State Fault Refusal :=
  compareBranchForm s src1 src2 disp compareOrdinal 3

/-- `cmpobl` (R377). -/
def execCmpobl (src1 : CSrc1) (src2 : CSrc2) (disp : BitVec 11) (_t : Bool) (s : State) :
    Host.Outcome State Fault Refusal :=
  compareBranchForm s src1 src2 disp compareOrdinal 4

/-- `cmpobne` (R378). -/
def execCmpobne (src1 : CSrc1) (src2 : CSrc2) (disp : BitVec 11) (_t : Bool) (s : State) :
    Host.Outcome State Fault Refusal :=
  compareBranchForm s src1 src2 disp compareOrdinal 5

/-- `cmpoble` (R379). -/
def execCmpoble (src1 : CSrc1) (src2 : CSrc2) (disp : BitVec 11) (_t : Bool) (s : State) :
    Host.Outcome State Fault Refusal :=
  compareBranchForm s src1 src2 disp compareOrdinal 6

/-- `cmpibno` (R380). -/
def execCmpibno (src1 : CSrc1) (src2 : CSrc2) (disp : BitVec 11) (_t : Bool) (s : State) :
    Host.Outcome State Fault Refusal :=
  compareBranchForm s src1 src2 disp compareInteger 0

/-- `cmpibg` (R381). -/
def execCmpibg (src1 : CSrc1) (src2 : CSrc2) (disp : BitVec 11) (_t : Bool) (s : State) :
    Host.Outcome State Fault Refusal :=
  compareBranchForm s src1 src2 disp compareInteger 1

/-- `cmpibe` (R382). -/
def execCmpibe (src1 : CSrc1) (src2 : CSrc2) (disp : BitVec 11) (_t : Bool) (s : State) :
    Host.Outcome State Fault Refusal :=
  compareBranchForm s src1 src2 disp compareInteger 2

/-- `cmpibge` (R383). -/
def execCmpibge (src1 : CSrc1) (src2 : CSrc2) (disp : BitVec 11) (_t : Bool) (s : State) :
    Host.Outcome State Fault Refusal :=
  compareBranchForm s src1 src2 disp compareInteger 3

/-- `cmpibl` (R384). -/
def execCmpibl (src1 : CSrc1) (src2 : CSrc2) (disp : BitVec 11) (_t : Bool) (s : State) :
    Host.Outcome State Fault Refusal :=
  compareBranchForm s src1 src2 disp compareInteger 4

/-- `cmpibne` (R385). -/
def execCmpibne (src1 : CSrc1) (src2 : CSrc2) (disp : BitVec 11) (_t : Bool) (s : State) :
    Host.Outcome State Fault Refusal :=
  compareBranchForm s src1 src2 disp compareInteger 5

/-- `cmpible` (R386). -/
def execCmpible (src1 : CSrc1) (src2 : CSrc2) (disp : BitVec 11) (_t : Bool) (s : State) :
    Host.Outcome State Fault Refusal :=
  compareBranchForm s src1 src2 disp compareInteger 6

/-- `cmpibo` (R387). -/
def execCmpibo (src1 : CSrc1) (src2 : CSrc2) (disp : BitVec 11) (_t : Bool) (s : State) :
    Host.Outcome State Fault Refusal :=
  compareBranchForm s src1 src2 disp compareInteger 7

/-- `bno` (R389). -/
def execBno (disp : BitVec 22) (_t : Bool) (s : State) :
    Host.Outcome State Fault Refusal :=
  conditionBranchForm s 0 disp

/-- `bg` (R390). -/
def execBg (disp : BitVec 22) (_t : Bool) (s : State) :
    Host.Outcome State Fault Refusal :=
  conditionBranchForm s 1 disp

/-- `be` (R391). -/
def execBe (disp : BitVec 22) (_t : Bool) (s : State) :
    Host.Outcome State Fault Refusal :=
  conditionBranchForm s 2 disp

/-- `bge` (R392). -/
def execBge (disp : BitVec 22) (_t : Bool) (s : State) :
    Host.Outcome State Fault Refusal :=
  conditionBranchForm s 3 disp

/-- `bl` (R393). -/
def execBl (disp : BitVec 22) (_t : Bool) (s : State) :
    Host.Outcome State Fault Refusal :=
  conditionBranchForm s 4 disp

/-- `bne` (R394). -/
def execBne (disp : BitVec 22) (_t : Bool) (s : State) :
    Host.Outcome State Fault Refusal :=
  conditionBranchForm s 5 disp

/-- `ble` (R395). -/
def execBle (disp : BitVec 22) (_t : Bool) (s : State) :
    Host.Outcome State Fault Refusal :=
  conditionBranchForm s 6 disp

/-- `bo` (R396). -/
def execBo (disp : BitVec 22) (_t : Bool) (s : State) :
    Host.Outcome State Fault Refusal :=
  conditionBranchForm s 7 disp


end Sys2Proof.Machine
end

