-- ==== Sys2Proof/Machine/Dma.lean ====
section
/-! DEFINITION. `sdma` and `udma` (`47_dma.md` R482, R483). -/

namespace Sys2Proof.Machine

/-- The address of the working block of a channel in internal data RAM (R481; log 11). -/
def dmaBlock (c : Fin 4) : Word := Config.dmaRamBase + BitVec.ofNat 32 (32 * c.val)

/-- A control word that selects data chaining (R482; the bit and its value are free parameters,
log 11). -/
def chaining (w : Word) : Bool := w.getLsbD Config.dmaChainingBit.val == Config.dmaChainingValue

/-- The third operand of an `sdma` without data chaining "must specify a register" (R482): a literal
is not allowed (DEDUCED from D24: log 42). -/
def quadOperand : Src3 → Operand
  | .reg n => .reg n
  | .lit _ => .bad

/-- The third operand of `sdma` as the control word has it used (R482). -/
def channelUse (src3 : Src3) (w : Word) : Use :=
  if chaining w then (src3Operand src3).one else (quadOperand src3).four

/-- The words of `src3` that `sdma` writes: one if data chaining, else four (R482). -/
def State.channelWords (s : State) (src3 : Src3) (w : Word) : List Word :=
  (List.range (if chaining w then 1 else 4)).map (s.value (src3Operand src3))

/-- Set up a channel and start it (R482). -/
def State.startChannel (s : State) (c : Fin 4) (control : Word) (words : List Word) : State :=
  let s1 := s.writeWords (dmaBlock c) words
  { s1 with
    dma :=
      { s1.dma with
        control := s1.dma.control.set c control
        started := s1.dma.started.set c true } }

/-- `sdma` (R482): a channel that is running is not described (U18, log 23). The writes to data RAM
match no data breakpoint (DESIGN CHOICE: log 22). -/
def execSdma (src1 src2 : Src) (src3 : Src3) (s : State) :
    Host.Outcome State Fault Refusal :=
  if s.em = false then takeEarlyFault s .privileged (s.ip + 4)
  else
    let w := s.value (srcOperand src2) 0
    let c : Fin 4 := ((s.value (srcOperand src1) 0).extractLsb' 0 2).toFin
    runChecked s 4 [(srcOperand src1).one, (srcOperand src2).one, channelUse src3 w] fun r =>
      if s.dma.started.get c then .error (.refuse .dmaChannelRunning)
      else .ok (r.modify fun t => t.startChannel c w (s.channelWords src3 w))

/-- Write the status of a channel to its block (R483). -/
def State.writeStatus (s : State) (c : Fin 4) : State :=
  s.writeWords (dmaBlock c) (s.dma.status.get c).toList

/-- `udma` (R483). The writes to data RAM match no data breakpoint (DESIGN CHOICE: log 22). -/
def execUdma (s : State) :
    Host.Outcome State Fault Refusal :=
  if s.em = false then takeEarlyFault s .privileged (s.ip + 4)
  else
    runInstr s 4 fun r =>
      .ok (r.modify fun t => (((t.writeStatus 0).writeStatus 1).writeStatus 2).writeStatus 3)


end Sys2Proof.Machine
end

