-- ==== Sys2Proof/Machine/FaultDebug.lean ====
section
/-! DEFINITION. Tracing instructions, `syncf` and conditional faults (`45_fault_debug.md`
R431 to R449). -/

namespace Sys2Proof.Machine

/-- `mark` (R431): with trace enable clear nothing at all is set. -/
def execMark (s : State) :
    Host.Outcome State Fault Refusal :=
  runInstr s 4 fun r => .ok (if r.te && r.modes.getLsbD 7 then r.note evBreakpoint else r)

/-- `fmark` (R432). -/
def execFmark (s : State) :
    Host.Outcome State Fault Refusal :=
  runInstr s 4 fun r => .ok (if r.te then r.note evBreakpoint else r)

/-- Install TC by `modtc`: if mode bits change, the window of four instructions opens
(`70_reset_and_hazards.md` R622). A window that is still open is replaced by the new one, which knows
only the TC before this `modtc` (DESIGN CHOICE, unsafe: log 21). -/
def Run.installTc (r : Run) (s0 : State) (w : Word) : Run :=
  { r with
    modes := s0.effectiveModes w
    s :=
      { r.s with
        tc := w
        trace :=
          if (w &&& 0xFE) = (s0.tc &&& 0xFE) then r.s.trace
          else { r.s.trace with tcDelay := { left := 4, old := s0.tc } } } }

/-- `modtc` (R437): dst receives the old TC. -/
def execModtc (src1 src2 : Src) (dst : Dst) (s : State) :
    Host.Outcome State Fault Refusal :=
  runChecked s 4 [(srcOperand src1).one, (srcOperand src2).one, (dstOperand dst).one] fun r =>
    .ok ((r.put (dstOperand dst) 0 s.tc).installTc s
      (underMask (s.value (srcOperand src1) 0) (s.value (srcOperand src2) 0) s.tc))

/-- `syncf` (R440): every fault is precise in the model, so none is outstanding (D48; log 10). -/
def execSyncf (s : State) :
    Host.Outcome State Fault Refusal :=
  runInstr s 4 fun r => .ok r

/-- `faultno` (R442). -/
def execFaultno (s : State) :
    Host.Outcome State Fault Refusal :=
  conditionFaultForm s 0

/-- `faultg` (R443). -/
def execFaultg (s : State) :
    Host.Outcome State Fault Refusal :=
  conditionFaultForm s 1

/-- `faulte` (R444). -/
def execFaulte (s : State) :
    Host.Outcome State Fault Refusal :=
  conditionFaultForm s 2

/-- `faultge` (R445). -/
def execFaultge (s : State) :
    Host.Outcome State Fault Refusal :=
  conditionFaultForm s 3

/-- `faultl` (R446). -/
def execFaultl (s : State) :
    Host.Outcome State Fault Refusal :=
  conditionFaultForm s 4

/-- `faultne` (R447). -/
def execFaultne (s : State) :
    Host.Outcome State Fault Refusal :=
  conditionFaultForm s 5

/-- `faultle` (R448). -/
def execFaultle (s : State) :
    Host.Outcome State Fault Refusal :=
  conditionFaultForm s 6

/-- `faulto` (R449). -/
def execFaulto (s : State) :
    Host.Outcome State Fault Refusal :=
  conditionFaultForm s 7


end Sys2Proof.Machine
end

