-- ==== Sys2Proof/Machine/Logical.lean ====
section
/-! DEFINITION. Logical, bit, bit-field and byte instructions (`42_logical_bit.md` R301 to R328). -/

namespace Sys2Proof.Machine

/-- `and` (R301). -/
def execAnd (src1 src2 : Src) (dst : Dst) (s : State) :
    Host.Outcome State Fault Refusal :=
  binaryForm s src1 src2 dst fun x y => y &&& x

/-- `andnot` (R302). -/
def execAndnot (src1 src2 : Src) (dst : Dst) (s : State) :
    Host.Outcome State Fault Refusal :=
  binaryForm s src1 src2 dst fun x y => y &&& ~~~x

/-- `notand` (R303). -/
def execNotand (src1 src2 : Src) (dst : Dst) (s : State) :
    Host.Outcome State Fault Refusal :=
  binaryForm s src1 src2 dst fun x y => ~~~y &&& x

/-- `xor` (R304). -/
def execXor (src1 src2 : Src) (dst : Dst) (s : State) :
    Host.Outcome State Fault Refusal :=
  binaryForm s src1 src2 dst fun x y => y ^^^ x

/-- `or` (R305). -/
def execOr (src1 src2 : Src) (dst : Dst) (s : State) :
    Host.Outcome State Fault Refusal :=
  binaryForm s src1 src2 dst fun x y => y ||| x

/-- `nor` (R306). -/
def execNor (src1 src2 : Src) (dst : Dst) (s : State) :
    Host.Outcome State Fault Refusal :=
  binaryForm s src1 src2 dst fun x y => ~~~y &&& ~~~x

/-- `xnor` (R307). -/
def execXnor (src1 src2 : Src) (dst : Dst) (s : State) :
    Host.Outcome State Fault Refusal :=
  binaryForm s src1 src2 dst fun x y => ~~~(y ^^^ x)

/-- `ornot` (R309). -/
def execOrnot (src1 src2 : Src) (dst : Dst) (s : State) :
    Host.Outcome State Fault Refusal :=
  binaryForm s src1 src2 dst fun x y => y ||| ~~~x

/-- `notor` (R310). -/
def execNotor (src1 src2 : Src) (dst : Dst) (s : State) :
    Host.Outcome State Fault Refusal :=
  binaryForm s src1 src2 dst fun x y => ~~~y ||| x

/-- `nand` (R311). -/
def execNand (src1 src2 : Src) (dst : Dst) (s : State) :
    Host.Outcome State Fault Refusal :=
  binaryForm s src1 src2 dst fun x y => ~~~y ||| ~~~x

/-- `setbit` (R316). -/
def execSetbit (src1 src2 : Src) (dst : Dst) (s : State) :
    Host.Outcome State Fault Refusal :=
  binaryForm s src1 src2 dst fun x y => y ||| bitMask x

/-- `clrbit` (R317). -/
def execClrbit (src1 src2 : Src) (dst : Dst) (s : State) :
    Host.Outcome State Fault Refusal :=
  binaryForm s src1 src2 dst fun x y => y &&& ~~~bitMask x

/-- `notbit` (R318). -/
def execNotbit (src1 src2 : Src) (dst : Dst) (s : State) :
    Host.Outcome State Fault Refusal :=
  binaryForm s src1 src2 dst fun x y => y ^^^ bitMask x

/-- `alterbit` (R319). -/
def execAlterbit (src1 src2 : Src) (dst : Dst) (s : State) :
    Host.Outcome State Fault Refusal :=
  binaryForm s src1 src2 dst (alterBit s.cc)

/-- `not` (R308). -/
def execNot (src : Src) (dst : Dst) (s : State) :
    Host.Outcome State Fault Refusal :=
  unaryForm s src dst fun x => ~~~x

/-- `chkbit` (R320). -/
def execChkbit (src1 src2 : Src) (s : State) :
    Host.Outcome State Fault Refusal :=
  codeForm s src1 src2 fun x y => truthCode (bitAt x y)

/-- `scanbit` (R321). -/
def execScanbit (src : Src) (dst : Dst) (s : State) :
    Host.Outcome State Fault Refusal :=
  unaryCodeForm s src dst scanBit

/-- `spanbit` (R322). -/
def execSpanbit (src : Src) (dst : Dst) (s : State) :
    Host.Outcome State Fault Refusal :=
  unaryCodeForm s src dst spanBit

/-- `extract` (R325). -/
def execExtract (src1 src2 : Src) (dst : Upd) (s : State) :
    Host.Outcome State Fault Refusal :=
  updateForm s src1 src2 dst extractField

/-- `modify` (R326). -/
def execModify (src1 src2 : Src) (dst : Upd) (s : State) :
    Host.Outcome State Fault Refusal :=
  updateForm s src1 src2 dst underMask

/-- `scanbyte` (R328). -/
def execScanbyte (src1 src2 : Src) (s : State) :
    Host.Outcome State Fault Refusal :=
  codeForm s src1 src2 fun x y => truthCode (someByteEqual x y)


end Sys2Proof.Machine
end

