-- ==== Sys2Proof/Machine/Movement.lean ====
section
/-! DEFINITION. Loads, stores, `lda` and moves (`40_data_movement.md` R222 to R243). -/

namespace Sys2Proof.Machine

/-- `ld` (R222). -/
def execLd (efa : Efa) (dst : RegNum) (s : State) :
    Host.Outcome State Fault Refusal :=
  loadForm s efa dst 4 wordOf

/-- `ldob` (R223). -/
def execLdob (efa : Efa) (dst : RegNum) (s : State) :
    Host.Outcome State Fault Refusal :=
  loadForm s efa dst 1 (fun _ bs => (byteOf bs).zeroExtend 32)

/-- `ldos` (R224). -/
def execLdos (efa : Efa) (dst : RegNum) (s : State) :
    Host.Outcome State Fault Refusal :=
  loadForm s efa dst 2 (fun be bs => (halfOf be bs).zeroExtend 32)

/-- `ldib` (R225). -/
def execLdib (efa : Efa) (dst : RegNum) (s : State) :
    Host.Outcome State Fault Refusal :=
  loadForm s efa dst 1 (fun _ bs => (byteOf bs).signExtend 32)

/-- `ldis` (R226). -/
def execLdis (efa : Efa) (dst : RegNum) (s : State) :
    Host.Outcome State Fault Refusal :=
  loadForm s efa dst 2 (fun be bs => (halfOf be bs).signExtend 32)

/-- `ldl` (R227). -/
def execLdl (efa : Efa) (dst : RegNum) (s : State) :
    Host.Outcome State Fault Refusal :=
  loadGroupForm s efa dst 2 2

/-- `ldt` (R228). -/
def execLdt (efa : Efa) (dst : RegNum) (s : State) :
    Host.Outcome State Fault Refusal :=
  loadGroupForm s efa dst 3 4

/-- `ldq` (R229). -/
def execLdq (efa : Efa) (dst : RegNum) (s : State) :
    Host.Outcome State Fault Refusal :=
  loadGroupForm s efa dst 4 4

/-- `lda` (R230): the address itself; no access is made. -/
def execLda (efa : Efa) (dst : RegNum) (s : State) :
    Host.Outcome State Fault Refusal :=
  runChecked s efa.len [(Operand.reg dst).one] fun r =>
    .ok (r.put (.reg dst) 0 (s.address s.ip efa))

/-- `st` (R231). -/
def execSt (src : RegNum) (efa : Efa) (s : State) :
    Host.Outcome State Fault Refusal :=
  storeForm s src efa 4 bytesOfWord

/-- `stob` (R232). -/
def execStob (src : RegNum) (efa : Efa) (s : State) :
    Host.Outcome State Fault Refusal :=
  storeForm s src efa 1 (fun _ v => [v.truncate 8])

/-- `stos` (R233). -/
def execStos (src : RegNum) (efa : Efa) (s : State) :
    Host.Outcome State Fault Refusal :=
  storeForm s src efa 2 (fun be v => bytesOfHalf be (v.truncate 16))

/-- `stib` (R234). -/
def execStib (src : RegNum) (efa : Efa) (s : State) :
    Host.Outcome State Fault Refusal :=
  storeIntegerForm s src efa 1 (fun _ v => [v.truncate 8]) fitsByte

/-- `stis` (R235). -/
def execStis (src : RegNum) (efa : Efa) (s : State) :
    Host.Outcome State Fault Refusal :=
  storeIntegerForm s src efa 2 (fun be v => bytesOfHalf be (v.truncate 16)) fitsShort

/-- `stl` (R236). -/
def execStl (src : RegNum) (efa : Efa) (s : State) :
    Host.Outcome State Fault Refusal :=
  storeGroupForm s src efa 2 2

/-- `stt` (R237). -/
def execStt (src : RegNum) (efa : Efa) (s : State) :
    Host.Outcome State Fault Refusal :=
  storeGroupForm s src efa 3 4

/-- `stq` (R238). -/
def execStq (src : RegNum) (efa : Efa) (s : State) :
    Host.Outcome State Fault Refusal :=
  storeGroupForm s src efa 4 4

/-- `mov` (R240). -/
def execMov (src : Src) (dst : Dst) (s : State) :
    Host.Outcome State Fault Refusal :=
  moveForm s src dst 1 1

/-- `movl` (R241). -/
def execMovl (src : Src) (dst : Dst) (s : State) :
    Host.Outcome State Fault Refusal :=
  moveForm s src dst 2 2

/-- `movt` (R242). -/
def execMovt (src : Src) (dst : Dst) (s : State) :
    Host.Outcome State Fault Refusal :=
  moveForm s src dst 3 4

/-- `movq` (R243). -/
def execMovq (src : Src) (dst : Dst) (s : State) :
    Host.Outcome State Fault Refusal :=
  moveForm s src dst 4 4


end Sys2Proof.Machine
end

