-- ==== Sys2Proof/Machine/Init.lean ====
section
/-! DEFINITION. Control registers from the control table, and initialization: power-up, a reset with
power on and reinitialization (`10_state.md` R59, R90; `70_reset_and_hazards.md` R600 to R603;
`46_atomic_procmgmt.md` R469, R470). -/

namespace Sys2Proof.Machine

/-- Load one group of four control registers (`10_state.md` R59; `46_atomic_procmgmt.md` R470). The
last word of group 6 is reserved and discarded; loading TC leaves an open window of `modtc` as it is
(DESIGN CHOICE: log 21). -/
def State.loadGroup (s : State) (g : Nat) (w0 w1 w2 w3 : Word) : State :=
  match g with
  | 0 => { s with ctrl := { s.ctrl with ipb0 := w0, ipb1 := w1, dab0 := w2, dab1 := w3 } }
  | 1 => { s with ctrl := { s.ctrl with imap0 := w0, imap1 := w1, imap2 := w2, icon := w3 } }
  | 2 =>
    { s with
      ctrl := { s.ctrl with mcon := (((s.ctrl.mcon.set 0 w0).set 1 w1).set 2 w2).set 3 w3 } }
  | 3 =>
    { s with
      ctrl := { s.ctrl with mcon := (((s.ctrl.mcon.set 4 w0).set 5 w1).set 6 w2).set 7 w3 } }
  | 4 =>
    { s with
      ctrl := { s.ctrl with mcon := (((s.ctrl.mcon.set 8 w0).set 9 w1).set 10 w2).set 11 w3 } }
  | 5 =>
    { s with
      ctrl := { s.ctrl with mcon := (((s.ctrl.mcon.set 12 w0).set 13 w1).set 14 w2).set 15 w3 } }
  | 6 => { s with ctrl := { s.ctrl with bpcon := w0, bcon := w2 }, tc := w1 }
  | _ => s

/-- The address of a group in the control table (R59). -/
def State.groupAddress (s : State) (g : Nat) : Word :=
  s.tables.ctrlTableBase + BitVec.ofNat 32 (16 * g)

/-- `load_control_group` (R470): the four words are read in the byte order of their region. -/
def State.loadControlGroup (s : State) (g : Nat) : State :=
  let a := s.groupAddress g
  s.loadGroup g (s.readWord a) (s.readWord (a + 4)) (s.readWord (a + 8)) (s.readWord (a + 12))

/-- One group at initialization: the words are read as little-endian words (R602; log 37). -/
def State.initGroup (s : State) (g : Nat) : State :=
  let a := s.groupAddress g
  s.loadGroup g (s.mem.readWord false a) (s.mem.readWord false (a + 4))
    (s.mem.readWord false (a + 8)) (s.mem.readWord false (a + 12))

/-- All seven groups, then BCON.ctv (R602 step 3). -/
def State.initControls (s : State) : State :=
  let s1 := (List.range 7).foldl State.initGroup s
  { s1 with ctrl := { s1.ctrl with bcon := putBit s1.ctrl.bcon 0 true } }

/-- What starts an initialization (R600, R602). -/
inductive InitKind where
  | powerUp
  /-- RESET while power is on -/
  | warmReset
  /-- `sysctl` message 03H -/
  | reinitialize
deriving DecidableEq, Repr

/-- What the PRCB of a reinitialization supplies (R602 step 2): free values, aligned as R601 and
`20_memory.md` R111 ask (log 20). -/
def prcbBoot (firstIp prcb : Word) (d : Nat) : Boot where
  firstIp := firstIp
  tables :=
    { prcbBase := prcb
      sptBase := Config.prcbWord prcb d 0 &&& 0xFFFFFFFC
      intTableBase := Config.prcbWord prcb d 1 &&& 0xFFFFFFFC
      intStackBase := Config.prcbWord prcb d 2
      faultTableBase := Config.prcbWord prcb d 3 &&& 0xFFFFFFFC
      ctrlTableBase := Config.prcbWord prcb d 4 &&& 0xFFFFFFF0 }
  config :=
    { faultOnUnaligned := (Config.prcbWord prcb d 6).getLsbD 0
      regcacheSets := (Config.prcbWord prcb d 7).toNat % 15 + 1 }
  initAc := Config.prcbWord prcb d 5
  icacheEnabled := (Config.prcbWord prcb d 8).getLsbD 0

/-- The NMI vector into data RAM, then the software-priority register from memory as that leaves it
(R602 steps 4, 5 and 8, in this order: D6). -/
def State.initInterrupts (s : State) : State :=
  let nmi := s.mem.readWord false (s.tables.intTableBase + 0x3E4)
  let s1 := s.writeWord 0 nmi
  { s1 with
    intc :=
      { s1.intc with
        swPriority := highestPriority (s1.mem.readWord false s.tables.intTableBase)
        nmiPending := false
        nmiDepth := none } }

/-- IMSK and IPND (R602 step 7; IPND after power-up is any value: log 3). -/
def State.initMasks (s : State) (kind : InitKind) : State :=
  match kind with
  | .powerUp => { s with intc := { s.intc with imsk := 0, ipnd := 0 } }
  | .warmReset => { s with intc := { s.intc with imsk := 0 } }
  | .reinitialize => s

/-- The DMA controller (`10_state.md` R90, D14; R603): idle after a reset, its registers unspecified
(0 at power-up: log 3; free values after a reset with power on: log 41). -/
def State.initDma (s : State) (kind : InitKind) : State :=
  match kind with
  | .powerUp =>
    { s with
      dma :=
        { dmac := 0
          control := Vector.replicate 4 0
          status := Vector.replicate 4 (Vector.replicate 8 0)
          started := Vector.replicate 4 false } }
  | .warmReset =>
    { s with
      dma :=
        { dmac := Config.freeWord s.draws
          control := Vector.ofFn fun c => Config.freeWord (s.draws + 1 + c.val)
          status := Vector.ofFn fun c => Vector.ofFn fun k =>
            Config.freeWord (s.draws + 5 + 8 * c.val + k.val)
          started := Vector.replicate 4 false }
      draws := s.draws + 37 }
  | .reinitialize => s

/-- The general registers (R602 step 9, D4): g15 and r1 on the interrupt stack, the others unspecified
(0 at power-up: log 2; free values else). `trace_ip` is unspecified too (log 5). -/
def State.initRegisters (s : State) (kind : InitKind) : State :=
  let fp := roundUp16 s.tables.intStackBase
  match kind with
  | .powerUp =>
    { s with
      locals := (Vector.replicate 16 0).set 1 (fp + 64)
      globals := (Vector.replicate 16 0).set 15 fp
      trace := { s.trace with traceIp := 0 } }
  | _ =>
    { s with
      locals := newLocals (Config.freeWord s.draws) (fp + 64) s.draws
      globals := (Vector.ofFn fun i => Config.freeWord (s.draws + 16 + i.val)).set 15 fp
      trace := { s.trace with traceIp := Config.freeWord (s.draws + 32) }
      draws := s.draws + 33 }

/-- The caches, the windows of R622 and the run of the program (R602 steps 6, 8 and 10). Every kind of
initialization closes both windows (DESIGN CHOICE, unsafe: log 21; at power-up log 5). -/
def State.initProgram (s : State) (b : Boot) : State :=
  { s with
    ip := alignTarget b.firstIp
    ac := b.initAc
    pctl := 0x001F2002
    rcache := []
    depth := 0
    icache :=
      { mode := if b.icacheEnabled then .normal1k else .disabled
        image := s.mem
        locked := none
        fetchingLocked := false }
    trace :=
      { s.trace with
        tcDelay := { left := 0, old := 0 }
        teDelay := { left := 0, old := false } }
    turns := [] }

/-- `initialize(kind, first_ip, prcb)` (R602) with the parameters of R601. No other agent acts during
it. -/
def State.initialize (s : State) (kind : InitKind) (b : Boot) : State :=
  ((((({ s with tables := b.tables, config := b.config }.initControls).initInterrupts).initMasks
    kind).initDma kind).initRegisters kind).initProgram b

/-- Power-up on an initial memory image (R600, R602), with the pins high. -/
def State.powerUp (b : Boot) (image : Memory) : State :=
  { State.reset with mem := image, boot := b, draws := 0 }.initialize .powerUp b

/-- A reset while power is on (R600, R602): the DMA channels stop, other bus masters may still have
written memory, the processor initializes with the parameters of the platform, and the pins are as the
event says; nothing is latched during it (log 41). Internal data RAM beyond word 0, which R90 calls
unspecified, keeps its contents (DESIGN CHOICE, unsafe: log 41). -/
def State.warmReset (s : State) (e : ExternalEvent) : State :=
  let idle := { s with dma := { s.dma with started := Vector.replicate 4 false } }
  let t := (e.writes.foldl State.agentWrite idle).initialize .warmReset s.boot
  { t with intc := { t.intc with xint := e.xint, nmiPin := e.nmi } }

/-- `reinitialize(first_ip, prcb)` (R602, R603, D51): `sysctl` message 03H. -/
def State.reinitialize (s : State) (firstIp prcb : Word) : State :=
  s.initialize .reinitialize (prcbBoot firstIp prcb s.draws)

end Sys2Proof.Machine
end

