-- ==== Sys2Proof/Machine/ProcMgmt.lean ====
section
/-! DEFINITION. Atomic instructions, arithmetic and process controls, and `sysctl`
(`46_atomic_procmgmt.md` R450 to R470). -/

namespace Sys2Proof.Machine

/-- The atomic read and write of one word (R450, R451): the protection check comes before the read;
a load and a store are seen by the breakpoints. Between the two LOCK keeps other bus masters, but not
the DMA controller, from the 16-byte block of the word (`20_memory.md` R123; log 40). -/
def Run.atomic (r : Run) (a : Word) (write : Word → Word) (o : Operand) : Except Stop Run := do
  let r1 ← r.access a 4 .store
  let old := r1.s.readWord a
  .ok (((r1.note (r1.s.dataBreak r1.modes a 4 .load)).modify fun t =>
    (t.lockedTurn (a &&& 0xFFFFFFF0) 16).writeWord a (write old)).put o 0 old)

/-- `atadd` (R450). -/
def execAtadd (src1 src2 : Src) (dst : Dst) (s : State) :
    Host.Outcome State Fault Refusal :=
  runChecked s 4 [(addressOperand src1).one, (srcOperand src2).one, (dstOperand dst).one] fun r =>
    r.atomic (alignTarget (s.value (addressOperand src1) 0))
      (fun old => old + s.value (srcOperand src2) 0) (dstOperand dst)

/-- `atmod` (R451). -/
def execAtmod (src1 src2 : Src) (dst : Upd) (s : State) :
    Host.Outcome State Fault Refusal :=
  runChecked s 4 [(addressOperand src1).one, (srcOperand src2).one, (updOperand dst).one] fun r =>
    r.atomic (alignTarget (s.value (addressOperand src1) 0))
      (underMask (s.value (srcOperand src2) 0) (s.value (updOperand dst) 0)) (updOperand dst)

/-- `modac` (R462): dst receives the old AC. -/
def execModac (src1 src2 : Src) (dst : Dst) (s : State) :
    Host.Outcome State Fault Refusal :=
  runChecked s 4 [(srcOperand src1).one, (srcOperand src2).one, (dstOperand dst).one] fun r =>
    .ok ((r.put (dstOperand dst) 0 s.ac).modify fun t =>
      { t with
        ac := underMask (s.value (srcOperand src1) 0) (s.value (srcOperand src2) 0) s.ac })

/-- The reserved bits of PC (R463). -/
def reservedPctl : Word := 0xFFE0DBFC

/-- Install PC by `modpc` (R463): a change of te opens the window of R622, a lowered priority
refreshes the software-priority register. -/
def Run.installPc (r : Run) (s0 : State) (w : Word) : Run :=
  let r1 := r.modify fun t =>
    { t with
      pctl := w
      trace :=
        if w.getLsbD 0 = s0.te then t.trace
        else { t.trace with teDelay := { left := 4, old := s0.te } } }
  if r1.s.priority < s0.priority then
    (r1.implicit r1.s.tables.intTableBase 4).modify State.checkPending
  else r1

/-- `modpc` (R463): a mask of 0 reads PC in either mode. -/
def execModpc (src1 src2 : Src) (dst : Upd) (s : State) :
    Host.Outcome State Fault Refusal :=
  runChecked s 4 [(srcOperand src1).one, (srcOperand src2).one, (updOperand dst).one] fun r =>
    let mask := s.value (srcOperand src2) 0
    let w := underMask mask (s.value (updOperand dst) 0) s.pctl
    if mask = 0 then .ok (r.put (updOperand dst) 0 s.pctl)
    else if s.em = false then .error (.trap .typeMismatch)
    else if (w ^^^ s.pctl) &&& reservedPctl ≠ 0 then .error (.fault .reservedProcessControls)
    else .ok ((r.put (updOperand dst) 0 s.pctl).installPc s w)

/-- `sysctl` 00H, request interrupt (R466, D35): the priorities are read again after the post. -/
def Run.requestInterrupt (r : Run) (v : BitVec 8) : Run :=
  let r1 := r.implicit r.s.tables.intTableBase 4
  if v < 8 then r1.modify State.checkPending
  else
    (r1.implicit (r.s.pendingByte (v.extractLsb' 3 5)) 1).modify fun t =>
      (t.postInTable v).turn.checkPending

/-- `sysctl` 01H, invalidate the instruction cache (R467, D36): the consistency point. -/
def State.invalidateCache (s : State) : State :=
  { s with
    icache := { s.icache with image := s.mem, locked := none, fetchingLocked := false } }

/-- Set the mode of the instruction cache and its locked part. -/
def State.setCacheMode (s : State) (m : ICacheMode) (locked : Option LockedBlock) : State :=
  { s with
    icache := { s.icache with mode := m, locked := locked, fetchingLocked := false } }

/-- Load and lock n quad words (R468): the address must be a multiple of 16 outside internal data RAM
(U17). The copy is read like data, one quad word at a time; these reads match no data breakpoint
(DESIGN CHOICE: log 22). -/
def Run.loadAndLock (r : Run) (m : ICacheMode) (a : Word) (n : Nat) : Except Stop Run :=
  if a.extractLsb' 0 4 = 0#4 ∧ inDataRam a = false then
    .ok (r.modify fun t =>
      let got := t.readQuads a n
      got.2.setCacheMode m (some ⟨a, got.1⟩))
  else .error (.refuse .lockAddress)

/-- `sysctl` 02H, configure the instruction cache (R468, D36, D37). A mode that locks nothing gives up
what was locked before (DESIGN CHOICE: log 15). -/
def Run.configureCache (r : Run) (mode : BitVec 8) (a : Word) : Except Stop Run :=
  if mode.getLsbD 0 then .ok (r.modify fun t => t.setCacheMode .disabled none)
  else if mode = 0 then .ok (r.modify fun t => t.setCacheMode .normal1k none)
  else if mode = 4 then r.loadAndLock .locked1k a 64
  else if mode = 6 then r.loadAndLock .locked512 a 32
  else .error (.trap .invalidOperand)

/-- `sysctl` 03H, reinitialize (R469): the trace events of the instruction go with the state that
it discards (log 20). -/
def Run.reinitialize (r : Run) (firstIp prcb : Word) : Run :=
  { r.modify fun t => t.reinitialize firstIp prcb with modes := 0, noted := 0 }

/-- `sysctl` 04H, load control registers (R470, D37). -/
def Run.loadControls (r : Run) (g : BitVec 8) : Except Stop Run :=
  if 6 < g.toNat then .error (.trap .invalidOperand)
  else
    .ok ((r.implicit (r.s.groupAddress g.toNat) 16).modify fun t =>
      t.loadControlGroup g.toNat)

/-- The messages of `sysctl` (R465). -/
def Run.control (r : Run) (msg field1 : BitVec 8) (field3 field4 : Word) : Except Stop Run :=
  match msg.toNat with
  | 0 => .ok (r.requestInterrupt field1)
  | 1 => .ok (r.modify State.invalidateCache)
  | 2 => r.configureCache field1 field3
  | 3 => .ok (r.reinitialize field3 field4)
  | 4 => r.loadControls field1
  | _ => .error (.trap .invalidOperand)

/-- `sysctl` (R465): privilege, then the operand checks, then the message. -/
def execSysctl (src1 src2 : Src) (src3 : Src3) (s : State) :
    Host.Outcome State Fault Refusal :=
  if s.em = false then takeEarlyFault s .privileged (s.ip + 4)
  else
    runChecked s 4 [(srcOperand src1).one, (srcOperand src2).one, (src3Operand src3).one] fun r =>
      let x := s.value (srcOperand src1) 0
      r.control (x.extractLsb' 8 8) (x.extractLsb' 0 8) (s.value (srcOperand src2) 0)
        (s.value (src3Operand src3) 0)


end Sys2Proof.Machine
end

