-- ==== Sys2Proof/Machine/Dispatch.lean ====
section
/-! DEFINITION. The meaning of each instruction, one arm per constructor of `Instr`. -/

namespace Sys2Proof.Machine

/-- Steps 4 to 12 of `61_faults.md` R531 for a decoded instruction. -/
def exec (i : Instr) (s : State) : Host.Outcome State Fault Refusal :=
  match i with
  | .b disp t => Sys2Proof.Machine.execB disp t s
  | .call disp t => Sys2Proof.Machine.execCall disp t s
  | .ret => Sys2Proof.Machine.execRet s
  | .bal disp t => Sys2Proof.Machine.execBal disp t s
  | .bno disp t => Sys2Proof.Machine.execBno disp t s
  | .bg disp t => Sys2Proof.Machine.execBg disp t s
  | .be disp t => Sys2Proof.Machine.execBe disp t s
  | .bge disp t => Sys2Proof.Machine.execBge disp t s
  | .bl disp t => Sys2Proof.Machine.execBl disp t s
  | .bne disp t => Sys2Proof.Machine.execBne disp t s
  | .ble disp t => Sys2Proof.Machine.execBle disp t s
  | .bo disp t => Sys2Proof.Machine.execBo disp t s
  | .faultno => Sys2Proof.Machine.execFaultno s
  | .faultg => Sys2Proof.Machine.execFaultg s
  | .faulte => Sys2Proof.Machine.execFaulte s
  | .faultge => Sys2Proof.Machine.execFaultge s
  | .faultl => Sys2Proof.Machine.execFaultl s
  | .faultne => Sys2Proof.Machine.execFaultne s
  | .faultle => Sys2Proof.Machine.execFaultle s
  | .faulto => Sys2Proof.Machine.execFaulto s
  | .testno dst => Sys2Proof.Machine.execTestno dst s
  | .testg dst => Sys2Proof.Machine.execTestg dst s
  | .teste dst => Sys2Proof.Machine.execTeste dst s
  | .testge dst => Sys2Proof.Machine.execTestge dst s
  | .testl dst => Sys2Proof.Machine.execTestl dst s
  | .testne dst => Sys2Proof.Machine.execTestne dst s
  | .testle dst => Sys2Proof.Machine.execTestle dst s
  | .testo dst => Sys2Proof.Machine.execTesto dst s
  | .bbc src1 src2 disp t => Sys2Proof.Machine.execBbc src1 src2 disp t s
  | .cmpobg src1 src2 disp t => Sys2Proof.Machine.execCmpobg src1 src2 disp t s
  | .cmpobe src1 src2 disp t => Sys2Proof.Machine.execCmpobe src1 src2 disp t s
  | .cmpobge src1 src2 disp t => Sys2Proof.Machine.execCmpobge src1 src2 disp t s
  | .cmpobl src1 src2 disp t => Sys2Proof.Machine.execCmpobl src1 src2 disp t s
  | .cmpobne src1 src2 disp t => Sys2Proof.Machine.execCmpobne src1 src2 disp t s
  | .cmpoble src1 src2 disp t => Sys2Proof.Machine.execCmpoble src1 src2 disp t s
  | .bbs src1 src2 disp t => Sys2Proof.Machine.execBbs src1 src2 disp t s
  | .cmpibno src1 src2 disp t => Sys2Proof.Machine.execCmpibno src1 src2 disp t s
  | .cmpibg src1 src2 disp t => Sys2Proof.Machine.execCmpibg src1 src2 disp t s
  | .cmpibe src1 src2 disp t => Sys2Proof.Machine.execCmpibe src1 src2 disp t s
  | .cmpibge src1 src2 disp t => Sys2Proof.Machine.execCmpibge src1 src2 disp t s
  | .cmpibl src1 src2 disp t => Sys2Proof.Machine.execCmpibl src1 src2 disp t s
  | .cmpibne src1 src2 disp t => Sys2Proof.Machine.execCmpibne src1 src2 disp t s
  | .cmpible src1 src2 disp t => Sys2Proof.Machine.execCmpible src1 src2 disp t s
  | .cmpibo src1 src2 disp t => Sys2Proof.Machine.execCmpibo src1 src2 disp t s
  | .notbit src1 src2 dst => Sys2Proof.Machine.execNotbit src1 src2 dst s
  | .and src1 src2 dst => Sys2Proof.Machine.execAnd src1 src2 dst s
  | .andnot src1 src2 dst => Sys2Proof.Machine.execAndnot src1 src2 dst s
  | .setbit src1 src2 dst => Sys2Proof.Machine.execSetbit src1 src2 dst s
  | .notand src1 src2 dst => Sys2Proof.Machine.execNotand src1 src2 dst s
  | .xor src1 src2 dst => Sys2Proof.Machine.execXor src1 src2 dst s
  | .or src1 src2 dst => Sys2Proof.Machine.execOr src1 src2 dst s
  | .nor src1 src2 dst => Sys2Proof.Machine.execNor src1 src2 dst s
  | .xnor src1 src2 dst => Sys2Proof.Machine.execXnor src1 src2 dst s
  | .not src dst => Sys2Proof.Machine.execNot src dst s
  | .ornot src1 src2 dst => Sys2Proof.Machine.execOrnot src1 src2 dst s
  | .clrbit src1 src2 dst => Sys2Proof.Machine.execClrbit src1 src2 dst s
  | .notor src1 src2 dst => Sys2Proof.Machine.execNotor src1 src2 dst s
  | .nand src1 src2 dst => Sys2Proof.Machine.execNand src1 src2 dst s
  | .alterbit src1 src2 dst => Sys2Proof.Machine.execAlterbit src1 src2 dst s
  | .addo src1 src2 dst => Sys2Proof.Machine.execAddo src1 src2 dst s
  | .addi src1 src2 dst => Sys2Proof.Machine.execAddi src1 src2 dst s
  | .subo src1 src2 dst => Sys2Proof.Machine.execSubo src1 src2 dst s
  | .subi src1 src2 dst => Sys2Proof.Machine.execSubi src1 src2 dst s
  | .shro src1 src2 dst => Sys2Proof.Machine.execShro src1 src2 dst s
  | .shrdi src1 src2 dst => Sys2Proof.Machine.execShrdi src1 src2 dst s
  | .shri src1 src2 dst => Sys2Proof.Machine.execShri src1 src2 dst s
  | .shlo src1 src2 dst => Sys2Proof.Machine.execShlo src1 src2 dst s
  | .rotate src1 src2 dst => Sys2Proof.Machine.execRotate src1 src2 dst s
  | .shli src1 src2 dst => Sys2Proof.Machine.execShli src1 src2 dst s
  | .cmpo src1 src2 => Sys2Proof.Machine.execCmpo src1 src2 s
  | .cmpi src1 src2 => Sys2Proof.Machine.execCmpi src1 src2 s
  | .concmpo src1 src2 => Sys2Proof.Machine.execConcmpo src1 src2 s
  | .concmpi src1 src2 => Sys2Proof.Machine.execConcmpi src1 src2 s
  | .cmpinco src1 src2 dst => Sys2Proof.Machine.execCmpinco src1 src2 dst s
  | .cmpinci src1 src2 dst => Sys2Proof.Machine.execCmpinci src1 src2 dst s
  | .cmpdeco src1 src2 dst => Sys2Proof.Machine.execCmpdeco src1 src2 dst s
  | .cmpdeci src1 src2 dst => Sys2Proof.Machine.execCmpdeci src1 src2 dst s
  | .scanbyte src1 src2 => Sys2Proof.Machine.execScanbyte src1 src2 s
  | .chkbit src1 src2 => Sys2Proof.Machine.execChkbit src1 src2 s
  | .addc src1 src2 dst => Sys2Proof.Machine.execAddc src1 src2 dst s
  | .subc src1 src2 dst => Sys2Proof.Machine.execSubc src1 src2 dst s
  | .mov src dst => Sys2Proof.Machine.execMov src dst s
  | .eshro src1 src2 dst => Sys2Proof.Machine.execEshro src1 src2 dst s
  | .movl src dst => Sys2Proof.Machine.execMovl src dst s
  | .movt src dst => Sys2Proof.Machine.execMovt src dst s
  | .movq src dst => Sys2Proof.Machine.execMovq src dst s
  | .atmod src1 src2 dst => Sys2Proof.Machine.execAtmod src1 src2 dst s
  | .atadd src1 src2 dst => Sys2Proof.Machine.execAtadd src1 src2 dst s
  | .sdma src1 src2 src3 => Sys2Proof.Machine.execSdma src1 src2 src3 s
  | .udma => Sys2Proof.Machine.execUdma s
  | .spanbit src dst => Sys2Proof.Machine.execSpanbit src dst s
  | .scanbit src dst => Sys2Proof.Machine.execScanbit src dst s
  | .modac src1 src2 dst => Sys2Proof.Machine.execModac src1 src2 dst s
  | .modify src1 src2 dst => Sys2Proof.Machine.execModify src1 src2 dst s
  | .extract src1 src2 dst => Sys2Proof.Machine.execExtract src1 src2 dst s
  | .modtc src1 src2 dst => Sys2Proof.Machine.execModtc src1 src2 dst s
  | .modpc src1 src2 dst => Sys2Proof.Machine.execModpc src1 src2 dst s
  | .sysctl src1 src2 src3 => Sys2Proof.Machine.execSysctl src1 src2 src3 s
  | .calls src => Sys2Proof.Machine.execCalls src s
  | .mark => Sys2Proof.Machine.execMark s
  | .fmark => Sys2Proof.Machine.execFmark s
  | .flushreg => Sys2Proof.Machine.execFlushreg s
  | .syncf => Sys2Proof.Machine.execSyncf s
  | .emul src1 src2 dst => Sys2Proof.Machine.execEmul src1 src2 dst s
  | .ediv src1 src2 dst => Sys2Proof.Machine.execEdiv src1 src2 dst s
  | .mulo src1 src2 dst => Sys2Proof.Machine.execMulo src1 src2 dst s
  | .remo src1 src2 dst => Sys2Proof.Machine.execRemo src1 src2 dst s
  | .divo src1 src2 dst => Sys2Proof.Machine.execDivo src1 src2 dst s
  | .muli src1 src2 dst => Sys2Proof.Machine.execMuli src1 src2 dst s
  | .remi src1 src2 dst => Sys2Proof.Machine.execRemi src1 src2 dst s
  | .modi src1 src2 dst => Sys2Proof.Machine.execModi src1 src2 dst s
  | .divi src1 src2 dst => Sys2Proof.Machine.execDivi src1 src2 dst s
  | .ldob efa dst => Sys2Proof.Machine.execLdob efa dst s
  | .stob src efa => Sys2Proof.Machine.execStob src efa s
  | .bx efa => Sys2Proof.Machine.execBx efa s
  | .balx efa dst => Sys2Proof.Machine.execBalx efa dst s
  | .callx efa => Sys2Proof.Machine.execCallx efa s
  | .ldos efa dst => Sys2Proof.Machine.execLdos efa dst s
  | .stos src efa => Sys2Proof.Machine.execStos src efa s
  | .lda efa dst => Sys2Proof.Machine.execLda efa dst s
  | .ld efa dst => Sys2Proof.Machine.execLd efa dst s
  | .st src efa => Sys2Proof.Machine.execSt src efa s
  | .ldl efa dst => Sys2Proof.Machine.execLdl efa dst s
  | .stl src efa => Sys2Proof.Machine.execStl src efa s
  | .ldt efa dst => Sys2Proof.Machine.execLdt efa dst s
  | .stt src efa => Sys2Proof.Machine.execStt src efa s
  | .ldq efa dst => Sys2Proof.Machine.execLdq efa dst s
  | .stq src efa => Sys2Proof.Machine.execStq src efa s
  | .ldib efa dst => Sys2Proof.Machine.execLdib efa dst s
  | .stib src efa => Sys2Proof.Machine.execStib src efa s
  | .ldis efa dst => Sys2Proof.Machine.execLdis efa dst s
  | .stis src efa => Sys2Proof.Machine.execStis src efa s

end Sys2Proof.Machine
end

