-- ==== Sys2Proof/WellFormed.lean ====
section
/-! DEFINITION. Which instructions are well formed: the operand classes of `30_encoding.md` R172, the
implemented special function registers (`10_state.md` R32) and the alignment of register groups
(`10_state.md` R26, `40_data_movement.md` R221). An instruction that is not well formed still has a
meaning: it raises OPERATION.INVALID_OPERAND (or TYPE.MISMATCH in user mode) by `61_faults.md` R531. -/

namespace Sys2Proof

/-- A register group of `width` words that must start at a multiple of `align` (`10_state.md` R26). -/
def RegNum.groupOk (n : RegNum) (align : Nat) : Bool := n.toNat % align == 0

/-- Special function registers sf n to sf (n + width - 1): implemented, and aligned as a group
(`10_state.md` R32, `41_arithmetic.md` R265). -/
def sfrGroupOk (n : BitVec 5) (width align : Nat) : Bool :=
  n.toNat % align == 0 && decide (n.toNat + width ≤ 3)

/-- A REG source that is a group of `width` words. -/
def Src.okGroup (width align : Nat) : Src → Bool
  | .reg n => RegNum.groupOk n align
  | .lit _ => true
  | .sfr n => sfrGroupOk n width align
  | .reserved _ => false

/-- A single-word REG source. -/
def Src.ok (a : Src) : Bool := a.okGroup 1 1

/-- A REG source that holds an address: reg or sfr, no literal (`46_atomic_procmgmt.md` R450). -/
def Src.okAddress : Src → Bool
  | .reg _ => true
  | .lit _ => false
  | .sfr n => sfrGroupOk n 1 1
  | .reserved _ => false

/-- A REG destination that is a group of `width` words. -/
def Dst.okGroup (width align : Nat) : Dst → Bool
  | .reg n => RegNum.groupOk n align
  | .sfr n => sfrGroupOk n width align

/-- A single-word REG destination. -/
def Dst.ok (d : Dst) : Bool := d.okGroup 1 1

/-- A field that must be a register. -/
def Upd.ok : Upd → Bool
  | .reg _ => true
  | .reserved _ => false

/-- COBR src1: always allowed. -/
def CSrc1.ok : CSrc1 → Bool
  | .reg _ => true
  | .lit _ => true

/-- COBR src2: an implemented special function register. -/
def CSrc2.ok : CSrc2 → Bool
  | .reg _ => true
  | .sfr n => sfrGroupOk n 1 1

/-- Well-formed instructions. -/
def Instr.wellFormed : Instr → Bool
  | .b _ _ => true
  | .call _ _ => true
  | .ret => true
  | .bal _ _ => true
  | .bno _ _ => true
  | .bg _ _ => true
  | .be _ _ => true
  | .bge _ _ => true
  | .bl _ _ => true
  | .bne _ _ => true
  | .ble _ _ => true
  | .bo _ _ => true
  | .faultno => true
  | .faultg => true
  | .faulte => true
  | .faultge => true
  | .faultl => true
  | .faultne => true
  | .faultle => true
  | .faulto => true
  | .testno dst => dst.ok
  | .testg dst => dst.ok
  | .teste dst => dst.ok
  | .testge dst => dst.ok
  | .testl dst => dst.ok
  | .testne dst => dst.ok
  | .testle dst => dst.ok
  | .testo dst => dst.ok
  | .bbc src1 src2 _ _ => src1.ok && src2.ok
  | .cmpobg src1 src2 _ _ => src1.ok && src2.ok
  | .cmpobe src1 src2 _ _ => src1.ok && src2.ok
  | .cmpobge src1 src2 _ _ => src1.ok && src2.ok
  | .cmpobl src1 src2 _ _ => src1.ok && src2.ok
  | .cmpobne src1 src2 _ _ => src1.ok && src2.ok
  | .cmpoble src1 src2 _ _ => src1.ok && src2.ok
  | .bbs src1 src2 _ _ => src1.ok && src2.ok
  | .cmpibno src1 src2 _ _ => src1.ok && src2.ok
  | .cmpibg src1 src2 _ _ => src1.ok && src2.ok
  | .cmpibe src1 src2 _ _ => src1.ok && src2.ok
  | .cmpibge src1 src2 _ _ => src1.ok && src2.ok
  | .cmpibl src1 src2 _ _ => src1.ok && src2.ok
  | .cmpibne src1 src2 _ _ => src1.ok && src2.ok
  | .cmpible src1 src2 _ _ => src1.ok && src2.ok
  | .cmpibo src1 src2 _ _ => src1.ok && src2.ok
  | .notbit src1 src2 dst => src1.ok && src2.ok && dst.ok
  | .and src1 src2 dst => src1.ok && src2.ok && dst.ok
  | .andnot src1 src2 dst => src1.ok && src2.ok && dst.ok
  | .setbit src1 src2 dst => src1.ok && src2.ok && dst.ok
  | .notand src1 src2 dst => src1.ok && src2.ok && dst.ok
  | .xor src1 src2 dst => src1.ok && src2.ok && dst.ok
  | .or src1 src2 dst => src1.ok && src2.ok && dst.ok
  | .nor src1 src2 dst => src1.ok && src2.ok && dst.ok
  | .xnor src1 src2 dst => src1.ok && src2.ok && dst.ok
  | .not src dst => src.ok && dst.ok
  | .ornot src1 src2 dst => src1.ok && src2.ok && dst.ok
  | .clrbit src1 src2 dst => src1.ok && src2.ok && dst.ok
  | .notor src1 src2 dst => src1.ok && src2.ok && dst.ok
  | .nand src1 src2 dst => src1.ok && src2.ok && dst.ok
  | .alterbit src1 src2 dst => src1.ok && src2.ok && dst.ok
  | .addo src1 src2 dst => src1.ok && src2.ok && dst.ok
  | .addi src1 src2 dst => src1.ok && src2.ok && dst.ok
  | .subo src1 src2 dst => src1.ok && src2.ok && dst.ok
  | .subi src1 src2 dst => src1.ok && src2.ok && dst.ok
  | .shro src1 src2 dst => src1.ok && src2.ok && dst.ok
  | .shrdi src1 src2 dst => src1.ok && src2.ok && dst.ok
  | .shri src1 src2 dst => src1.ok && src2.ok && dst.ok
  | .shlo src1 src2 dst => src1.ok && src2.ok && dst.ok
  | .rotate src1 src2 dst => src1.ok && src2.ok && dst.ok
  | .shli src1 src2 dst => src1.ok && src2.ok && dst.ok
  | .cmpo src1 src2 => src1.ok && src2.ok
  | .cmpi src1 src2 => src1.ok && src2.ok
  | .concmpo src1 src2 => src1.ok && src2.ok
  | .concmpi src1 src2 => src1.ok && src2.ok
  | .cmpinco src1 src2 dst => src1.ok && src2.ok && dst.ok
  | .cmpinci src1 src2 dst => src1.ok && src2.ok && dst.ok
  | .cmpdeco src1 src2 dst => src1.ok && src2.ok && dst.ok
  | .cmpdeci src1 src2 dst => src1.ok && src2.ok && dst.ok
  | .scanbyte src1 src2 => src1.ok && src2.ok
  | .chkbit src1 src2 => src1.ok && src2.ok
  | .addc src1 src2 dst => src1.ok && src2.ok && dst.ok
  | .subc src1 src2 dst => src1.ok && src2.ok && dst.ok
  | .mov src dst => src.ok && dst.ok
  | .eshro src1 src2 dst => src1.ok && src2.okGroup 2 2 && dst.ok
  | .movl src dst => src.okGroup 2 2 && dst.okGroup 2 2
  | .movt src dst => src.okGroup 3 4 && dst.okGroup 3 4
  | .movq src dst => src.okGroup 4 4 && dst.okGroup 4 4
  | .atmod src1 src2 dst => src1.okAddress && src2.ok && dst.ok
  | .atadd src1 src2 dst => src1.okAddress && src2.ok && dst.ok
  | .sdma src1 src2 _ => src1.ok && src2.ok
  | .udma => true
  | .spanbit src dst => src.ok && dst.ok
  | .scanbit src dst => src.ok && dst.ok
  | .modac src1 src2 dst => src1.ok && src2.ok && dst.ok
  | .modify src1 src2 dst => src1.ok && src2.ok && dst.ok
  | .extract src1 src2 dst => src1.ok && src2.ok && dst.ok
  | .modtc src1 src2 dst => src1.ok && src2.ok && dst.ok
  | .modpc src1 src2 dst => src1.ok && src2.ok && dst.ok
  | .sysctl src1 src2 _ => src1.ok && src2.ok
  | .calls src => src.ok
  | .mark => true
  | .fmark => true
  | .flushreg => true
  | .syncf => true
  | .emul src1 src2 dst => src1.ok && src2.ok && dst.okGroup 2 2
  | .ediv src1 src2 dst => src1.ok && src2.okGroup 2 2 && dst.okGroup 2 2
  | .mulo src1 src2 dst => src1.ok && src2.ok && dst.ok
  | .remo src1 src2 dst => src1.ok && src2.ok && dst.ok
  | .divo src1 src2 dst => src1.ok && src2.ok && dst.ok
  | .muli src1 src2 dst => src1.ok && src2.ok && dst.ok
  | .remi src1 src2 dst => src1.ok && src2.ok && dst.ok
  | .modi src1 src2 dst => src1.ok && src2.ok && dst.ok
  | .divi src1 src2 dst => src1.ok && src2.ok && dst.ok
  | .ldob _ _ => true
  | .stob _ _ => true
  | .bx _ => true
  | .balx _ _ => true
  | .callx _ => true
  | .ldos _ _ => true
  | .stos _ _ => true
  | .lda _ _ => true
  | .ld _ _ => true
  | .st _ _ => true
  | .ldl _ dst => RegNum.groupOk dst 2
  | .stl src _ => RegNum.groupOk src 2
  | .ldt _ dst => RegNum.groupOk dst 4
  | .stt src _ => RegNum.groupOk src 4
  | .ldq _ dst => RegNum.groupOk dst 4
  | .stq src _ => RegNum.groupOk src 4
  | .ldib _ _ => true
  | .stib _ _ => true
  | .ldis _ _ => true
  | .stis _ _ => true

end Sys2Proof
end

