-- ==== Sys2Proof/Decode.lean ====
section
/-! DEFINITION. The decoder and, after it, the encoder, both from the encoding tables of
`30_encoding.md` (R160 to R177, R186). The positions of the fields are the spec's general-knowledge
layout: PRESUMED, unsafe (log 7). -/

namespace Sys2Proof

/-- Why the decoder refuses. In the machine the first three raise OPERATION.INVALID_OPCODE
(`61_faults.md` R541); the last cannot happen to a fetch, which always reads whole words. -/
inductive Reject where
  /-- the opcode is not in R186 (R184) -/
  | undefinedOpcode
  /-- MEMB mode 0110 (R177) -/
  | reservedMode
  /-- scale code 101 to 111 in a mode that scales an index (R177, D26) -/
  | reservedScale
  /-- fewer bytes than the instruction has -/
  | truncated
deriving DecidableEq, Repr

/-- The bytes of a little-endian word, lowest address first (`20_memory.md` R103). -/
def wordOfBytes (b0 b1 b2 b3 : Byte) : Word := (b3 ++ b2 ++ b1 ++ b0 : BitVec 32)

/-- The opcode byte, bits 31:24 (R160). -/
def opByte (w : Word) : Nat := (w.extractLsb' 24 8).toNat

/-- The 12-bit opcode of a REG word, bits 31:24 and 10:7 (R162). -/
def regOpcode (w : Word) : Nat := (w.extractLsb' 24 8).toNat * 16 + (w.extractLsb' 7 4).toNat

/-- Bits 23:19: src/dst of REG and MEM, src1 of COBR (R162, R163, R165). -/
def fieldHi (w : Word) : BitVec 5 := w.extractLsb' 19 5

/-- Bits 18:14: src2 of REG and COBR, abase of MEM (R162, R163, R165). -/
def fieldMid (w : Word) : BitVec 5 := w.extractLsb' 14 5

/-- Bits 4:0: src1 of REG, index of MEMB (R162, R167). -/
def fieldLo (w : Word) : BitVec 5 := w.extractLsb' 0 5

/-- A REG source from its mode bit, its special flag and its field (R170). -/
def srcOf (m s : Bool) (n : BitVec 5) : Src :=
  match m, s with
  | false, false => .reg n
  | true, false => .lit n
  | false, true => .sfr n
  | true, true => .reserved n

/-- src1 of a REG word: M1 is bit 11, S1 bit 5 (R162, R170). -/
def regSrc1 (w : Word) : Src := srcOf (w.getLsbD 11) (w.getLsbD 5) (fieldLo w)

/-- src2 of a REG word: M2 is bit 12, S2 bit 6 (R162, R170). -/
def regSrc2 (w : Word) : Src := srcOf (w.getLsbD 12) (w.getLsbD 6) (fieldMid w)

/-- src/dst of a REG word as a destination only: M3 is bit 13 (R170). -/
def regDst (w : Word) : Dst := if w.getLsbD 13 then .sfr (fieldHi w) else .reg (fieldHi w)

/-- src/dst of a REG word as a source and destination (R170). -/
def regUpd (w : Word) : Upd := if w.getLsbD 13 then .reserved (fieldHi w) else .reg (fieldHi w)

/-- src/dst of a REG word as a source only (R170). -/
def regSrc3 (w : Word) : Src3 := if w.getLsbD 13 then .lit (fieldHi w) else .reg (fieldHi w)

/-- src1 of a COBR word: M1 is bit 13 (R163, R171). -/
def cobrSrc1 (w : Word) : CSrc1 := if w.getLsbD 13 then .lit (fieldHi w) else .reg (fieldHi w)

/-- src2 of a COBR word: S2 is bit 0 (R163, R171). -/
def cobrSrc2 (w : Word) : CSrc2 := if w.getLsbD 0 then .sfr (fieldMid w) else .reg (fieldMid w)

/-- The destination of a `test` word, in the src1 field with M1 = 0 (R171). -/
def cobrDst (w : Word) : Upd := if w.getLsbD 13 then .reserved (fieldHi w) else .reg (fieldHi w)

/-- The scale code of a MEMB word, bits 9:7 (R176). -/
def scaleOf (code : Nat) : Except Reject Scale :=
  match code with
  | 0 => .ok .x1
  | 1 => .ok .x2
  | 2 => .ok .x4
  | 3 => .ok .x8
  | 4 => .ok .x16
  | _ => .error .reservedScale

/-- The addressing mode of a MEM opword and the word after it (R165, R167, R176). -/
def decodeEfa (w d : Word) : Except Reject Efa :=
  if w.getLsbD 12 then
    match (w.extractLsb' 10 4).toNat with
    | 4 => .ok (.regInd (fieldMid w))
    | 5 => .ok (.ipDisp d)
    | 7 => (scaleOf (w.extractLsb' 7 3).toNat).map fun k => .regIndex (fieldMid w) (fieldLo w) k
    | 12 => .ok (.absDisp d)
    | 13 => .ok (.regDisp (fieldMid w) d)
    | 14 => (scaleOf (w.extractLsb' 7 3).toNat).map fun k => .indexDisp (fieldLo w) k d
    | 15 => (scaleOf (w.extractLsb' 7 3).toNat).map fun k =>
        .regIndexDisp (fieldMid w) (fieldLo w) k d
    | _ => .error .reservedMode
  else if w.getLsbD 13 then .ok (.regOffset (fieldMid w) (w.extractLsb' 0 12))
  else .ok (.absOffset (w.extractLsb' 0 12))

/-- Whether an opword is followed by a displacement word (R168). -/
def hasSecondWord (w : Word) : Bool :=
  decide (0x80 ≤ opByte w) && w.getLsbD 12 &&
    (match (w.extractLsb' 10 4).toNat with
     | 5 => true
     | 12 => true
     | 13 => true
     | 14 => true
     | 15 => true
     | _ => false)

/-- CTRL words by opcode byte (R164, R186). -/
def decodeCtrl (op : Nat) (w : Word) : Except Reject Instr :=
  match op with
  | 0x08 => .ok (.b (w.extractLsb' 2 22) (w.getLsbD 1))
  | 0x09 => .ok (.call (w.extractLsb' 2 22) (w.getLsbD 1))
  | 0x0A => .ok .ret
  | 0x0B => .ok (.bal (w.extractLsb' 2 22) (w.getLsbD 1))
  | 0x10 => .ok (.bno (w.extractLsb' 2 22) (w.getLsbD 1))
  | 0x11 => .ok (.bg (w.extractLsb' 2 22) (w.getLsbD 1))
  | 0x12 => .ok (.be (w.extractLsb' 2 22) (w.getLsbD 1))
  | 0x13 => .ok (.bge (w.extractLsb' 2 22) (w.getLsbD 1))
  | 0x14 => .ok (.bl (w.extractLsb' 2 22) (w.getLsbD 1))
  | 0x15 => .ok (.bne (w.extractLsb' 2 22) (w.getLsbD 1))
  | 0x16 => .ok (.ble (w.extractLsb' 2 22) (w.getLsbD 1))
  | 0x17 => .ok (.bo (w.extractLsb' 2 22) (w.getLsbD 1))
  | 0x18 => .ok .faultno
  | 0x19 => .ok .faultg
  | 0x1A => .ok .faulte
  | 0x1B => .ok .faultge
  | 0x1C => .ok .faultl
  | 0x1D => .ok .faultne
  | 0x1E => .ok .faultle
  | 0x1F => .ok .faulto
  | _ => .error .undefinedOpcode

/-- COBR words by opcode byte (R163, R186). -/
def decodeCobr (op : Nat) (w : Word) : Except Reject Instr :=
  match op with
  | 0x20 => .ok (.testno (cobrDst w))
  | 0x21 => .ok (.testg (cobrDst w))
  | 0x22 => .ok (.teste (cobrDst w))
  | 0x23 => .ok (.testge (cobrDst w))
  | 0x24 => .ok (.testl (cobrDst w))
  | 0x25 => .ok (.testne (cobrDst w))
  | 0x26 => .ok (.testle (cobrDst w))
  | 0x27 => .ok (.testo (cobrDst w))
  | 0x30 => .ok (.bbc (cobrSrc1 w) (cobrSrc2 w) (w.extractLsb' 2 11) (w.getLsbD 1))
  | 0x31 => .ok (.cmpobg (cobrSrc1 w) (cobrSrc2 w) (w.extractLsb' 2 11) (w.getLsbD 1))
  | 0x32 => .ok (.cmpobe (cobrSrc1 w) (cobrSrc2 w) (w.extractLsb' 2 11) (w.getLsbD 1))
  | 0x33 => .ok (.cmpobge (cobrSrc1 w) (cobrSrc2 w) (w.extractLsb' 2 11) (w.getLsbD 1))
  | 0x34 => .ok (.cmpobl (cobrSrc1 w) (cobrSrc2 w) (w.extractLsb' 2 11) (w.getLsbD 1))
  | 0x35 => .ok (.cmpobne (cobrSrc1 w) (cobrSrc2 w) (w.extractLsb' 2 11) (w.getLsbD 1))
  | 0x36 => .ok (.cmpoble (cobrSrc1 w) (cobrSrc2 w) (w.extractLsb' 2 11) (w.getLsbD 1))
  | 0x37 => .ok (.bbs (cobrSrc1 w) (cobrSrc2 w) (w.extractLsb' 2 11) (w.getLsbD 1))
  | 0x38 => .ok (.cmpibno (cobrSrc1 w) (cobrSrc2 w) (w.extractLsb' 2 11) (w.getLsbD 1))
  | 0x39 => .ok (.cmpibg (cobrSrc1 w) (cobrSrc2 w) (w.extractLsb' 2 11) (w.getLsbD 1))
  | 0x3A => .ok (.cmpibe (cobrSrc1 w) (cobrSrc2 w) (w.extractLsb' 2 11) (w.getLsbD 1))
  | 0x3B => .ok (.cmpibge (cobrSrc1 w) (cobrSrc2 w) (w.extractLsb' 2 11) (w.getLsbD 1))
  | 0x3C => .ok (.cmpibl (cobrSrc1 w) (cobrSrc2 w) (w.extractLsb' 2 11) (w.getLsbD 1))
  | 0x3D => .ok (.cmpibne (cobrSrc1 w) (cobrSrc2 w) (w.extractLsb' 2 11) (w.getLsbD 1))
  | 0x3E => .ok (.cmpible (cobrSrc1 w) (cobrSrc2 w) (w.extractLsb' 2 11) (w.getLsbD 1))
  | 0x3F => .ok (.cmpibo (cobrSrc1 w) (cobrSrc2 w) (w.extractLsb' 2 11) (w.getLsbD 1))
  | _ => .error .undefinedOpcode

/-- REG words by 12-bit opcode (R162, R186). -/
def decodeReg (op : Nat) (w : Word) : Except Reject Instr :=
  match op with
  | 0x580 => .ok (.notbit (regSrc1 w) (regSrc2 w) (regDst w))
  | 0x581 => .ok (.and (regSrc1 w) (regSrc2 w) (regDst w))
  | 0x582 => .ok (.andnot (regSrc1 w) (regSrc2 w) (regDst w))
  | 0x583 => .ok (.setbit (regSrc1 w) (regSrc2 w) (regDst w))
  | 0x584 => .ok (.notand (regSrc1 w) (regSrc2 w) (regDst w))
  | 0x586 => .ok (.xor (regSrc1 w) (regSrc2 w) (regDst w))
  | 0x587 => .ok (.or (regSrc1 w) (regSrc2 w) (regDst w))
  | 0x588 => .ok (.nor (regSrc1 w) (regSrc2 w) (regDst w))
  | 0x589 => .ok (.xnor (regSrc1 w) (regSrc2 w) (regDst w))
  | 0x58A => .ok (.not (regSrc1 w) (regDst w))
  | 0x58B => .ok (.ornot (regSrc1 w) (regSrc2 w) (regDst w))
  | 0x58C => .ok (.clrbit (regSrc1 w) (regSrc2 w) (regDst w))
  | 0x58D => .ok (.notor (regSrc1 w) (regSrc2 w) (regDst w))
  | 0x58E => .ok (.nand (regSrc1 w) (regSrc2 w) (regDst w))
  | 0x58F => .ok (.alterbit (regSrc1 w) (regSrc2 w) (regDst w))
  | 0x590 => .ok (.addo (regSrc1 w) (regSrc2 w) (regDst w))
  | 0x591 => .ok (.addi (regSrc1 w) (regSrc2 w) (regDst w))
  | 0x592 => .ok (.subo (regSrc1 w) (regSrc2 w) (regDst w))
  | 0x593 => .ok (.subi (regSrc1 w) (regSrc2 w) (regDst w))
  | 0x598 => .ok (.shro (regSrc1 w) (regSrc2 w) (regDst w))
  | 0x59A => .ok (.shrdi (regSrc1 w) (regSrc2 w) (regDst w))
  | 0x59B => .ok (.shri (regSrc1 w) (regSrc2 w) (regDst w))
  | 0x59C => .ok (.shlo (regSrc1 w) (regSrc2 w) (regDst w))
  | 0x59D => .ok (.rotate (regSrc1 w) (regSrc2 w) (regDst w))
  | 0x59E => .ok (.shli (regSrc1 w) (regSrc2 w) (regDst w))
  | 0x5A0 => .ok (.cmpo (regSrc1 w) (regSrc2 w))
  | 0x5A1 => .ok (.cmpi (regSrc1 w) (regSrc2 w))
  | 0x5A2 => .ok (.concmpo (regSrc1 w) (regSrc2 w))
  | 0x5A3 => .ok (.concmpi (regSrc1 w) (regSrc2 w))
  | 0x5A4 => .ok (.cmpinco (regSrc1 w) (regSrc2 w) (regDst w))
  | 0x5A5 => .ok (.cmpinci (regSrc1 w) (regSrc2 w) (regDst w))
  | 0x5A6 => .ok (.cmpdeco (regSrc1 w) (regSrc2 w) (regDst w))
  | 0x5A7 => .ok (.cmpdeci (regSrc1 w) (regSrc2 w) (regDst w))
  | 0x5AC => .ok (.scanbyte (regSrc1 w) (regSrc2 w))
  | 0x5AE => .ok (.chkbit (regSrc1 w) (regSrc2 w))
  | 0x5B0 => .ok (.addc (regSrc1 w) (regSrc2 w) (regDst w))
  | 0x5B2 => .ok (.subc (regSrc1 w) (regSrc2 w) (regDst w))
  | 0x5CC => .ok (.mov (regSrc1 w) (regDst w))
  | 0x5D8 => .ok (.eshro (regSrc1 w) (regSrc2 w) (regDst w))
  | 0x5DC => .ok (.movl (regSrc1 w) (regDst w))
  | 0x5EC => .ok (.movt (regSrc1 w) (regDst w))
  | 0x5FC => .ok (.movq (regSrc1 w) (regDst w))
  | 0x610 => .ok (.atmod (regSrc1 w) (regSrc2 w) (regUpd w))
  | 0x612 => .ok (.atadd (regSrc1 w) (regSrc2 w) (regDst w))
  | 0x630 => .ok (.sdma (regSrc1 w) (regSrc2 w) (regSrc3 w))
  | 0x631 => .ok .udma
  | 0x640 => .ok (.spanbit (regSrc1 w) (regDst w))
  | 0x641 => .ok (.scanbit (regSrc1 w) (regDst w))
  | 0x645 => .ok (.modac (regSrc1 w) (regSrc2 w) (regDst w))
  | 0x650 => .ok (.modify (regSrc1 w) (regSrc2 w) (regUpd w))
  | 0x651 => .ok (.extract (regSrc1 w) (regSrc2 w) (regUpd w))
  | 0x654 => .ok (.modtc (regSrc1 w) (regSrc2 w) (regDst w))
  | 0x655 => .ok (.modpc (regSrc1 w) (regSrc2 w) (regUpd w))
  | 0x659 => .ok (.sysctl (regSrc1 w) (regSrc2 w) (regSrc3 w))
  | 0x660 => .ok (.calls (regSrc1 w))
  | 0x66B => .ok .mark
  | 0x66C => .ok .fmark
  | 0x66D => .ok .flushreg
  | 0x66F => .ok .syncf
  | 0x670 => .ok (.emul (regSrc1 w) (regSrc2 w) (regDst w))
  | 0x671 => .ok (.ediv (regSrc1 w) (regSrc2 w) (regDst w))
  | 0x701 => .ok (.mulo (regSrc1 w) (regSrc2 w) (regDst w))
  | 0x708 => .ok (.remo (regSrc1 w) (regSrc2 w) (regDst w))
  | 0x70B => .ok (.divo (regSrc1 w) (regSrc2 w) (regDst w))
  | 0x741 => .ok (.muli (regSrc1 w) (regSrc2 w) (regDst w))
  | 0x748 => .ok (.remi (regSrc1 w) (regSrc2 w) (regDst w))
  | 0x749 => .ok (.modi (regSrc1 w) (regSrc2 w) (regDst w))
  | 0x74B => .ok (.divi (regSrc1 w) (regSrc2 w) (regDst w))
  | _ => .error .undefinedOpcode

/-- MEM words by opcode byte (R165, R167, R186). -/
def decodeMem (op : Nat) (w d : Word) : Except Reject Instr :=
  match op with
  | 0x80 => (decodeEfa w d).map fun e => .ldob e (fieldHi w)
  | 0x82 => (decodeEfa w d).map fun e => .stob (fieldHi w) e
  | 0x84 => (decodeEfa w d).map .bx
  | 0x85 => (decodeEfa w d).map fun e => .balx e (fieldHi w)
  | 0x86 => (decodeEfa w d).map .callx
  | 0x88 => (decodeEfa w d).map fun e => .ldos e (fieldHi w)
  | 0x8A => (decodeEfa w d).map fun e => .stos (fieldHi w) e
  | 0x8C => (decodeEfa w d).map fun e => .lda e (fieldHi w)
  | 0x90 => (decodeEfa w d).map fun e => .ld e (fieldHi w)
  | 0x92 => (decodeEfa w d).map fun e => .st (fieldHi w) e
  | 0x98 => (decodeEfa w d).map fun e => .ldl e (fieldHi w)
  | 0x9A => (decodeEfa w d).map fun e => .stl (fieldHi w) e
  | 0xA0 => (decodeEfa w d).map fun e => .ldt e (fieldHi w)
  | 0xA2 => (decodeEfa w d).map fun e => .stt (fieldHi w) e
  | 0xB0 => (decodeEfa w d).map fun e => .ldq e (fieldHi w)
  | 0xB2 => (decodeEfa w d).map fun e => .stq (fieldHi w) e
  | 0xC0 => (decodeEfa w d).map fun e => .ldib e (fieldHi w)
  | 0xC2 => (decodeEfa w d).map fun e => .stib (fieldHi w) e
  | 0xC8 => (decodeEfa w d).map fun e => .ldis e (fieldHi w)
  | 0xCA => (decodeEfa w d).map fun e => .stis (fieldHi w) e
  | _ => .error .undefinedOpcode

/-- The decoder: an opword and the word after it (R161, R186). -/
def decode (w d : Word) : Except Reject Instr :=
  if opByte w < 0x20 then decodeCtrl (opByte w) w
  else if opByte w < 0x40 then decodeCobr (opByte w) w
  else if opByte w < 0x80 then decodeReg (regOpcode w) w
  else decodeMem (opByte w) w d

/-- The decoder on bytes in little-endian order, lowest address first; it answers the instruction
and the bytes after it. -/
def decodeBytes : List Byte → Except Reject (Instr × List Byte)
  | b0 :: b1 :: b2 :: b3 :: rest =>
    if hasSecondWord (wordOfBytes b0 b1 b2 b3) then
      match rest with
      | c0 :: c1 :: c2 :: c3 :: rest' =>
        (decode (wordOfBytes b0 b1 b2 b3) (wordOfBytes c0 c1 c2 c3)).map fun i => (i, rest')
      | _ => .error .truncated
    else (decode (wordOfBytes b0 b1 b2 b3) 0).map fun i => (i, rest)
  | _ => .error .truncated

/-- The eight bytes of an instruction whose low `nbits` bits are those of `w` and whose other bits
are 0, in the order the hardware stores them in a little-endian region. -/
def tableBytes (nbits w : Nat) : List Byte :=
  (List.range 8).map fun k => BitVec.ofNat 8 ((w % 2 ^ nbits) / 2 ^ (8 * k))

/-- What the decoder reads from an instruction whose bits are `w`, numbered as
`spec/opcode_table.json` numbers them. -/
def decodeTableWord (nbits w : Nat) : Option Instr :=
  match decodeBytes (tableBytes nbits w) with
  | .ok (i, _) => some i
  | .error _ => none

/-! The encoder. -/

/-- A CTRL word (R164); the reserved bit 0 is written 0. -/
def packCtrl (op : BitVec 8) (disp : BitVec 22) (t : Bool) : Word :=
  (op ++ disp ++ BitVec.ofBool t ++ 0#1 : BitVec 32)

/-- A COBR word (R163). -/
def packCobr (op : BitVec 8) (src1 src2 : BitVec 5) (m1 : Bool) (disp : BitVec 11) (t s2 : Bool) :
    Word :=
  (op ++ src1 ++ src2 ++ BitVec.ofBool m1 ++ disp ++ BitVec.ofBool t ++ BitVec.ofBool s2 :
    BitVec 32)

/-- A REG word (R162): `hi` and `lo` are the two parts of the opcode. -/
def packReg (hi : BitVec 8) (lo : BitVec 4) (srcDst src2 : BitVec 5) (m3 m2 m1 s2 s1 : Bool)
    (src1 : BitVec 5) : Word :=
  (hi ++ srcDst ++ src2 ++ BitVec.ofBool m3 ++ BitVec.ofBool m2 ++ BitVec.ofBool m1 ++ lo ++
    BitVec.ofBool s2 ++ BitVec.ofBool s1 ++ src1 : BitVec 32)

/-- A MEMA word (R165). -/
def packMema (op : BitVec 8) (reg abase : BitVec 5) (mode : Bool) (offset : BitVec 12) : Word :=
  (op ++ reg ++ abase ++ BitVec.ofBool mode ++ 0#1 ++ offset : BitVec 32)

/-- A MEMB opword (R167). -/
def packMemb (op : BitVec 8) (reg abase : BitVec 5) (mode : BitVec 4) (scale : BitVec 3)
    (index : BitVec 5) : Word :=
  (op ++ reg ++ abase ++ mode ++ scale ++ 0#2 ++ index : BitVec 32)

/-- The field of a REG source. -/
def Src.num : Src → BitVec 5
  | .reg n => n
  | .lit n => n
  | .sfr n => n
  | .reserved n => n

/-- The mode bit of a REG source (R170). -/
def Src.m : Src → Bool
  | .reg _ => false
  | .lit _ => true
  | .sfr _ => false
  | .reserved _ => true

/-- The special flag of a REG source (R170). -/
def Src.s : Src → Bool
  | .reg _ => false
  | .lit _ => false
  | .sfr _ => true
  | .reserved _ => true

/-- The field of a destination. -/
def Dst.num : Dst → BitVec 5
  | .reg n => n
  | .sfr n => n

/-- M3 of a destination (R170). -/
def Dst.m : Dst → Bool
  | .reg _ => false
  | .sfr _ => true

/-- The field of a register-only operand. -/
def Upd.num : Upd → BitVec 5
  | .reg n => n
  | .reserved n => n

/-- The mode bit of a register-only operand (R170, R171). -/
def Upd.m : Upd → Bool
  | .reg _ => false
  | .reserved _ => true

/-- The field of a third source. -/
def Src3.num : Src3 → BitVec 5
  | .reg n => n
  | .lit n => n

/-- M3 of a third source (R170). -/
def Src3.m : Src3 → Bool
  | .reg _ => false
  | .lit _ => true

/-- The field of a COBR src1. -/
def CSrc1.num : CSrc1 → BitVec 5
  | .reg n => n
  | .lit n => n

/-- M1 of a COBR src1 (R171). -/
def CSrc1.m : CSrc1 → Bool
  | .reg _ => false
  | .lit _ => true

/-- The field of a COBR src2. -/
def CSrc2.num : CSrc2 → BitVec 5
  | .reg n => n
  | .sfr n => n

/-- S2 of a COBR src2 (R171). -/
def CSrc2.s : CSrc2 → Bool
  | .reg _ => false
  | .sfr _ => true

/-- The scale code (R176). -/
def Scale.code : Scale → BitVec 3
  | .x1 => 0
  | .x2 => 1
  | .x4 => 2
  | .x8 => 3
  | .x16 => 4

/-- The words of a MEM instruction (R165, R167, R176); fields its mode does not use are 0. -/
def encodeMem (op : BitVec 8) (reg : BitVec 5) : Efa → List Word
  | .absOffset o => [packMema op reg 0 false o]
  | .regOffset a o => [packMema op reg a true o]
  | .regInd a => [packMemb op reg a 4 0 0]
  | .ipDisp d => [packMemb op reg 0 5 0 0, d]
  | .regIndex a i k => [packMemb op reg a 7 k.code i]
  | .absDisp d => [packMemb op reg 0 12 0 0, d]
  | .regDisp a d => [packMemb op reg a 13 0 0, d]
  | .indexDisp i k d => [packMemb op reg 0 14 k.code i, d]
  | .regIndexDisp a i k d => [packMemb op reg a 15 k.code i, d]

/-- A REG word from its operands. -/
def encodeReg (hi : BitVec 8) (lo : BitVec 4) (srcDst : BitVec 5) (m3 : Bool) (src2 src1 : Src) :
    List Word :=
  [packReg hi lo srcDst src2.num m3 src2.m src1.m src2.s src1.s src1.num]

/-- A COBR word from its operands. -/
def encodeCobr (op : BitVec 8) (src1 : CSrc1) (src2 : CSrc2) (disp : BitVec 11) (t : Bool) :
    List Word :=
  [packCobr op src1.num src2.num src1.m disp t src2.s]

/-- The encoder: the words of an instruction. Fields that the instruction does not use are
written 0 (`30_encoding.md` R173 (f), R185). -/
def encode : Instr → List Word
  | .b disp t => [packCtrl 0x08 disp t]
  | .call disp t => [packCtrl 0x09 disp t]
  | .ret => [packCtrl 0x0A 0 false]
  | .bal disp t => [packCtrl 0x0B disp t]
  | .bno disp t => [packCtrl 0x10 disp t]
  | .bg disp t => [packCtrl 0x11 disp t]
  | .be disp t => [packCtrl 0x12 disp t]
  | .bge disp t => [packCtrl 0x13 disp t]
  | .bl disp t => [packCtrl 0x14 disp t]
  | .bne disp t => [packCtrl 0x15 disp t]
  | .ble disp t => [packCtrl 0x16 disp t]
  | .bo disp t => [packCtrl 0x17 disp t]
  | .faultno => [packCtrl 0x18 0 false]
  | .faultg => [packCtrl 0x19 0 false]
  | .faulte => [packCtrl 0x1A 0 false]
  | .faultge => [packCtrl 0x1B 0 false]
  | .faultl => [packCtrl 0x1C 0 false]
  | .faultne => [packCtrl 0x1D 0 false]
  | .faultle => [packCtrl 0x1E 0 false]
  | .faulto => [packCtrl 0x1F 0 false]
  | .testno dst => [packCobr 0x20 dst.num 0 dst.m 0 false false]
  | .testg dst => [packCobr 0x21 dst.num 0 dst.m 0 false false]
  | .teste dst => [packCobr 0x22 dst.num 0 dst.m 0 false false]
  | .testge dst => [packCobr 0x23 dst.num 0 dst.m 0 false false]
  | .testl dst => [packCobr 0x24 dst.num 0 dst.m 0 false false]
  | .testne dst => [packCobr 0x25 dst.num 0 dst.m 0 false false]
  | .testle dst => [packCobr 0x26 dst.num 0 dst.m 0 false false]
  | .testo dst => [packCobr 0x27 dst.num 0 dst.m 0 false false]
  | .bbc src1 src2 disp t => encodeCobr 0x30 src1 src2 disp t
  | .cmpobg src1 src2 disp t => encodeCobr 0x31 src1 src2 disp t
  | .cmpobe src1 src2 disp t => encodeCobr 0x32 src1 src2 disp t
  | .cmpobge src1 src2 disp t => encodeCobr 0x33 src1 src2 disp t
  | .cmpobl src1 src2 disp t => encodeCobr 0x34 src1 src2 disp t
  | .cmpobne src1 src2 disp t => encodeCobr 0x35 src1 src2 disp t
  | .cmpoble src1 src2 disp t => encodeCobr 0x36 src1 src2 disp t
  | .bbs src1 src2 disp t => encodeCobr 0x37 src1 src2 disp t
  | .cmpibno src1 src2 disp t => encodeCobr 0x38 src1 src2 disp t
  | .cmpibg src1 src2 disp t => encodeCobr 0x39 src1 src2 disp t
  | .cmpibe src1 src2 disp t => encodeCobr 0x3A src1 src2 disp t
  | .cmpibge src1 src2 disp t => encodeCobr 0x3B src1 src2 disp t
  | .cmpibl src1 src2 disp t => encodeCobr 0x3C src1 src2 disp t
  | .cmpibne src1 src2 disp t => encodeCobr 0x3D src1 src2 disp t
  | .cmpible src1 src2 disp t => encodeCobr 0x3E src1 src2 disp t
  | .cmpibo src1 src2 disp t => encodeCobr 0x3F src1 src2 disp t
  | .notbit src1 src2 dst => encodeReg 0x58 0x0 dst.num dst.m src2 src1
  | .and src1 src2 dst => encodeReg 0x58 0x1 dst.num dst.m src2 src1
  | .andnot src1 src2 dst => encodeReg 0x58 0x2 dst.num dst.m src2 src1
  | .setbit src1 src2 dst => encodeReg 0x58 0x3 dst.num dst.m src2 src1
  | .notand src1 src2 dst => encodeReg 0x58 0x4 dst.num dst.m src2 src1
  | .xor src1 src2 dst => encodeReg 0x58 0x6 dst.num dst.m src2 src1
  | .or src1 src2 dst => encodeReg 0x58 0x7 dst.num dst.m src2 src1
  | .nor src1 src2 dst => encodeReg 0x58 0x8 dst.num dst.m src2 src1
  | .xnor src1 src2 dst => encodeReg 0x58 0x9 dst.num dst.m src2 src1
  | .not src dst => encodeReg 0x58 0xA dst.num dst.m (.reg 0) src
  | .ornot src1 src2 dst => encodeReg 0x58 0xB dst.num dst.m src2 src1
  | .clrbit src1 src2 dst => encodeReg 0x58 0xC dst.num dst.m src2 src1
  | .notor src1 src2 dst => encodeReg 0x58 0xD dst.num dst.m src2 src1
  | .nand src1 src2 dst => encodeReg 0x58 0xE dst.num dst.m src2 src1
  | .alterbit src1 src2 dst => encodeReg 0x58 0xF dst.num dst.m src2 src1
  | .addo src1 src2 dst => encodeReg 0x59 0x0 dst.num dst.m src2 src1
  | .addi src1 src2 dst => encodeReg 0x59 0x1 dst.num dst.m src2 src1
  | .subo src1 src2 dst => encodeReg 0x59 0x2 dst.num dst.m src2 src1
  | .subi src1 src2 dst => encodeReg 0x59 0x3 dst.num dst.m src2 src1
  | .shro src1 src2 dst => encodeReg 0x59 0x8 dst.num dst.m src2 src1
  | .shrdi src1 src2 dst => encodeReg 0x59 0xA dst.num dst.m src2 src1
  | .shri src1 src2 dst => encodeReg 0x59 0xB dst.num dst.m src2 src1
  | .shlo src1 src2 dst => encodeReg 0x59 0xC dst.num dst.m src2 src1
  | .rotate src1 src2 dst => encodeReg 0x59 0xD dst.num dst.m src2 src1
  | .shli src1 src2 dst => encodeReg 0x59 0xE dst.num dst.m src2 src1
  | .cmpo src1 src2 => encodeReg 0x5A 0x0 0 false src2 src1
  | .cmpi src1 src2 => encodeReg 0x5A 0x1 0 false src2 src1
  | .concmpo src1 src2 => encodeReg 0x5A 0x2 0 false src2 src1
  | .concmpi src1 src2 => encodeReg 0x5A 0x3 0 false src2 src1
  | .cmpinco src1 src2 dst => encodeReg 0x5A 0x4 dst.num dst.m src2 src1
  | .cmpinci src1 src2 dst => encodeReg 0x5A 0x5 dst.num dst.m src2 src1
  | .cmpdeco src1 src2 dst => encodeReg 0x5A 0x6 dst.num dst.m src2 src1
  | .cmpdeci src1 src2 dst => encodeReg 0x5A 0x7 dst.num dst.m src2 src1
  | .scanbyte src1 src2 => encodeReg 0x5A 0xC 0 false src2 src1
  | .chkbit src1 src2 => encodeReg 0x5A 0xE 0 false src2 src1
  | .addc src1 src2 dst => encodeReg 0x5B 0x0 dst.num dst.m src2 src1
  | .subc src1 src2 dst => encodeReg 0x5B 0x2 dst.num dst.m src2 src1
  | .mov src dst => encodeReg 0x5C 0xC dst.num dst.m (.reg 0) src
  | .eshro src1 src2 dst => encodeReg 0x5D 0x8 dst.num dst.m src2 src1
  | .movl src dst => encodeReg 0x5D 0xC dst.num dst.m (.reg 0) src
  | .movt src dst => encodeReg 0x5E 0xC dst.num dst.m (.reg 0) src
  | .movq src dst => encodeReg 0x5F 0xC dst.num dst.m (.reg 0) src
  | .atmod src1 src2 dst => encodeReg 0x61 0x0 dst.num dst.m src2 src1
  | .atadd src1 src2 dst => encodeReg 0x61 0x2 dst.num dst.m src2 src1
  | .sdma src1 src2 src3 => encodeReg 0x63 0x0 src3.num src3.m src2 src1
  | .udma => encodeReg 0x63 0x1 0 false (.reg 0) (.reg 0)
  | .spanbit src dst => encodeReg 0x64 0x0 dst.num dst.m (.reg 0) src
  | .scanbit src dst => encodeReg 0x64 0x1 dst.num dst.m (.reg 0) src
  | .modac src1 src2 dst => encodeReg 0x64 0x5 dst.num dst.m src2 src1
  | .modify src1 src2 dst => encodeReg 0x65 0x0 dst.num dst.m src2 src1
  | .extract src1 src2 dst => encodeReg 0x65 0x1 dst.num dst.m src2 src1
  | .modtc src1 src2 dst => encodeReg 0x65 0x4 dst.num dst.m src2 src1
  | .modpc src1 src2 dst => encodeReg 0x65 0x5 dst.num dst.m src2 src1
  | .sysctl src1 src2 src3 => encodeReg 0x65 0x9 src3.num src3.m src2 src1
  | .calls src => encodeReg 0x66 0x0 0 false (.reg 0) src
  | .mark => encodeReg 0x66 0xB 0 false (.reg 0) (.reg 0)
  | .fmark => encodeReg 0x66 0xC 0 false (.reg 0) (.reg 0)
  | .flushreg => encodeReg 0x66 0xD 0 false (.reg 0) (.reg 0)
  | .syncf => encodeReg 0x66 0xF 0 false (.reg 0) (.reg 0)
  | .emul src1 src2 dst => encodeReg 0x67 0x0 dst.num dst.m src2 src1
  | .ediv src1 src2 dst => encodeReg 0x67 0x1 dst.num dst.m src2 src1
  | .mulo src1 src2 dst => encodeReg 0x70 0x1 dst.num dst.m src2 src1
  | .remo src1 src2 dst => encodeReg 0x70 0x8 dst.num dst.m src2 src1
  | .divo src1 src2 dst => encodeReg 0x70 0xB dst.num dst.m src2 src1
  | .muli src1 src2 dst => encodeReg 0x74 0x1 dst.num dst.m src2 src1
  | .remi src1 src2 dst => encodeReg 0x74 0x8 dst.num dst.m src2 src1
  | .modi src1 src2 dst => encodeReg 0x74 0x9 dst.num dst.m src2 src1
  | .divi src1 src2 dst => encodeReg 0x74 0xB dst.num dst.m src2 src1
  | .ldob efa dst => encodeMem 0x80 dst efa
  | .stob src efa => encodeMem 0x82 src efa
  | .bx efa => encodeMem 0x84 0 efa
  | .balx efa dst => encodeMem 0x85 dst efa
  | .callx efa => encodeMem 0x86 0 efa
  | .ldos efa dst => encodeMem 0x88 dst efa
  | .stos src efa => encodeMem 0x8A src efa
  | .lda efa dst => encodeMem 0x8C dst efa
  | .ld efa dst => encodeMem 0x90 dst efa
  | .st src efa => encodeMem 0x92 src efa
  | .ldl efa dst => encodeMem 0x98 dst efa
  | .stl src efa => encodeMem 0x9A src efa
  | .ldt efa dst => encodeMem 0xA0 dst efa
  | .stt src efa => encodeMem 0xA2 src efa
  | .ldq efa dst => encodeMem 0xB0 dst efa
  | .stq src efa => encodeMem 0xB2 src efa
  | .ldib efa dst => encodeMem 0xC0 dst efa
  | .stib src efa => encodeMem 0xC2 src efa
  | .ldis efa dst => encodeMem 0xC8 dst efa
  | .stis src efa => encodeMem 0xCA src efa

end Sys2Proof
end

