-- ==== Sys2Proof/Machine/Fetch.lean ====
section
/-! DEFINITION. Instruction fetch through the instruction cache (`20_memory.md` R131 to R134;
`60_exceptions.md` R515), and placing an instruction where the next fetch finds it. -/

namespace Sys2Proof.Machine

/-- The locked copy of the word at an address, while instructions come from it (R515). -/
def State.lockedWord (s : State) (a : Word) : Option Word :=
  if s.icache.fetchingLocked && s.inLocked a then
    match s.icache.locked with
    | some b => b.words[(a - b.base).toNat / 4]?
    | none => none
  else none

/-- The instruction word at an address, and how many free values that takes: a word written since
the last consistency point is fetched old or new (R131, D13; log 14). -/
def State.fetchWord (s : State) (a : Word) : Word × Nat :=
  match s.lockedWord a with
  | some w => (w, 0)
  | none =>
    let new := s.mem.readWord (s.bigEndian a) a
    let old := s.icache.image.readWord (s.bigEndian a) a
    if new = old then (new, 0)
    else (if Config.freeBit s.draws then new else old, 1)

/-- The state after a word is fetched: a miss of the locked copy ends its use (R134, R515). -/
def State.afterFetch (s : State) (a : Word) : State :=
  { s with
    draws := s.draws + (s.fetchWord a).2
    icache := { s.icache with fetchingLocked := s.icache.fetchingLocked && s.inLocked a } }

/-- An instruction as fetched: its words, its length in bytes, and the state after the fetch. -/
structure Fetched where
  word : Word
  second : Word
  len : Word
  s : State
deriving DecidableEq, Repr

/-- Fetch the instruction at the instruction pointer (`30_encoding.md` R168): a second word only
where the format has one. The second word of an instruction at FFFFFFFCH is the word at 0, fetched
without a fault (DESIGN CHOICE, unsafe: log 43). -/
def State.fetch (s : State) : Fetched :=
  let w := (s.fetchWord s.ip).1
  let s1 := s.afterFetch s.ip
  if hasSecondWord w then
    { word := w, second := (s1.fetchWord (s.ip + 4)).1, len := 8, s := s1.afterFetch (s.ip + 4) }
  else { word := w, second := 0, len := 4, s := s1 }

/-- `mem` with an instruction word at an address, in the byte order of its region. -/
def State.placeWord (s : State) (m : Memory) (a w : Word) : Memory :=
  match bytesOfWord (s.bigEndian a) w with
  | [b0, b1, b2, b3] =>
    (((m.write a.toNat b0).write (a + 1).toNat b1).write (a + 2).toNat b2).write (a + 3).toNat b3
  | _ => m

/-- A memory with the two words of an instruction at the instruction pointer. -/
def State.placeInstr (s : State) (m : Memory) (w : Nat) : Memory :=
  s.placeWord (s.placeWord m s.ip (BitVec.ofNat 32 w)) (s.ip + 4) (BitVec.ofNat 32 (w >>> 32))

/-- The state with an instruction loaded at the instruction pointer, in memory and in what the
instruction cache holds (log 34). -/
def State.loadInstr (s : State) (w : Nat) : State :=
  { s with
    mem := s.placeInstr s.mem w
    icache := { s.icache with image := s.placeInstr s.icache.image w, fetchingLocked := false } }

end Sys2Proof.Machine
end

