-- ==== Sys2Proof/Machine/Boundary.lean ====
section
/-! DEFINITION. One pass through the loop of `62_tracing.md` R585: what happens between two
instructions, then one instruction (log 13). -/

namespace Sys2Proof.Machine

/-- The address of the instruction after the one at the instruction pointer whose first word is `w`; a
word that is no instruction has the length of its format (DESIGN CHOICE: log 30). -/
def State.nextIp (s : State) (w : Word) : Word := s.ip + (if hasSecondWord w then 8 else 4)

/-- The instruction at the instruction pointer runs (R585 steps 5 to 7; `61_faults.md` R531): fetch
from internal data RAM and undefined encodings fault before anything else, and other agents have no turn
in the entry of such a fault. -/
def State.runNext (s : State) : Host.Outcome State Fault Refusal :=
  if inDataRam s.ip then takeEarlyFault s .unimplemented (s.nextIp (s.readWord s.ip))
  else
    match decode s.fetch.word s.fetch.second with
    | .ok i => exec i s.fetch.s
    | .error _ => takeEarlyFault s.fetch.s .invalidOpcode (s.nextIp s.fetch.word)

/-- The pending trace fault, then the instruction (R585 step 4; R574). The entry of the trace fault is
indivisible: other agents have no turn in it. -/
def State.afterInterrupts (s : State) : Host.Outcome State Fault Refusal :=
  if s.tfp then
    if s.te then faultOutcome ({ s with turns := [] }.traceFault s.trace.traceIp)
    else { s with tc := s.tc &&& 0xF001FFFF }.runNext
  else s.runNext

/-- What follows the sampling of the inputs (R585 steps 2 to 7). While an NMI is in service no
interrupt is delivered (`60_exceptions.md` R512). The interrupt mode 11b is not defined (U14). -/
def State.afterSampling (s : State) : Host.Outcome State Fault Refusal :=
  if s.nmiReady then .next s.takeNmi
  else if s.intc.nmiDepth.isSome then s.afterInterrupts
  else if s.intMode = 3 then .fault .undefinedInterruptMode
  else
    match s.deliver with
    | .entered t => .next t
    | .quiet t => t.afterInterrupts

/-- One pass through the loop of R585. A run with a table that is not aligned is refused (U5, log 23). -/
def State.pass (s : State) : Host.Outcome State Fault Refusal :=
  if s.tables.aligned then s.sampleInputs.afterSampling else .refused .misalignedTable

/-- A reset while power is on (`70_reset_and_hazards.md` R600), or one pass through the loop. -/
def State.boundary (s : State) : Host.Outcome State Fault Refusal :=
  match s.intc.events with
  | [] => s.pass
  | e :: rest =>
    if e.reset then .next ({ s with intc := { s.intc with events := rest } }.warmReset e) else s.pass

end Sys2Proof.Machine
end

