-- ==== Sys2Proof/Machine/Step.lean ====
section
/-! DEFINITION. The step of the machine, and placing an instruction where the step fetches. -/

namespace Sys2Proof.Machine

/-- One step: one pass through the loop of `62_tracing.md` R585. -/
def step (s : State) : Host.Outcome State Fault Refusal := s.boundary

/-- The state with an instruction stored where the next step fetches it (log 34). -/
def State.withFetchWord (s : State) (nbits w : Nat) : State := s.loadInstr (w % 2 ^ nbits)

end Sys2Proof.Machine
end

