-- ==== Sys2Proof/Safety.lean ====
section
/-! DEFINITION. The terms in which statements about the machine are made: when an instruction runs
undisturbed, what it leaves unchanged, and the invariant that every step keeps. -/

namespace Sys2Proof.Machine

/-! When an instruction runs undisturbed. -/

/-- No trace event can be detected but that of `fmark`: no mode bit of TC is set and no window of
`70_reset_and_hazards.md` R622 is open. -/
def State.untraced (s : State) : Bool :=
  (s.tc &&& 0xFE) == 0 && s.trace.tcDelay.left == 0 && s.trace.teDelay.left == 0

/-- An operand that the mode allows and whose registers exist and are aligned (`61_faults.md` R531
steps 5 and 6). -/
def State.canUse (s : State) (u : Use) : Bool :=
  match u.operand with
  | .reg n => n.toNat % u.align == 0
  | .lit _ => true
  | .sfr n => s.em && n.toNat % u.align == 0 && decide (n.toNat + u.width ≤ 3)
  | .bad => false

/-- Operands that all pass. -/
def State.canUseAll (s : State) (us : List Use) : Bool := us.all s.canUse

/-- An access of n bytes that neither faults nor stops (`20_memory.md` R107 to R110). -/
def State.canAccess (s : State) (a : Word) (n : Nat) : Bool :=
  a.toNat % naturalBoundary n == 0 || (!s.config.faultOnUnaligned && !s.bigEndian a)

/-- A store of n bytes that neither faults nor stops (R107 to R112). -/
def State.canStore (s : State) (a : Word) (n : Nat) : Bool :=
  s.canAccess a n && (s.em || !s.protectedRange a n)

/-- No other agent comes between the bus requests of an access: it is one request, or nothing is due
(`20_memory.md` R109, R122). -/
def State.whole (s : State) (a : Word) (n : Nat) : Bool :=
  a.toNat % naturalBoundary n == 0 || s.turns.isEmpty

/-- A call that can save the current set: the cache has room, or the set that it spills goes where
the mode may write (`44_call_return.md` R402, D32). -/
def State.canSpill (s : State) : Bool :=
  match s.spillFrame with
  | none => true
  | some f => s.em || !s.protectedRange f 64

/-- The state with the instruction pointer past an instruction of `len` bytes. -/
def State.advance (s : State) (len : Word) : State := { s with ip := s.ip + len }

/-- The state after a control transfer. -/
def State.goTo (s : State) (target : Word) : State :=
  { s with ip := target, icache := { s.icache with fetchingLocked := false } }

/-- The state with words put into consecutive registers of a destination. -/
def State.putWords (s : State) (o : Operand) : Nat → List Word → State
  | _, [] => s
  | k, w :: ws => (s.putValue o k w).putWords o (k + 1) ws

/-- The outcome is a next state that has a property. -/
def completesWith (o : Host.Outcome State Fault Refusal) (P : State → Prop) : Prop :=
  ∃ t, o = .next t ∧ P t

/-! What an instruction leaves unchanged. -/

/-- Everything but the general registers, the special function registers, AC, the instruction pointer
and memory. -/
structure State.KeepsSystem (s t : State) : Prop where
  pctl : t.pctl = s.pctl
  tc : t.tc = s.tc
  rcache : t.rcache = s.rcache
  depth : t.depth = s.depth
  tables : t.tables = s.tables
  config : t.config = s.config
  ctrl : t.ctrl = s.ctrl
  swPriority : t.intc.swPriority = s.intc.swPriority
  nmiPending : t.intc.nmiPending = s.intc.nmiPending
  nmiDepth : t.intc.nmiDepth = s.intc.nmiDepth
  events : t.intc.events = s.intc.events
  pins : t.intc.xint = s.intc.xint ∧ t.intc.nmiPin = s.intc.nmiPin
  control : t.dma.control = s.dma.control
  status : t.dma.status = s.dma.status
  started : t.dma.started = s.dma.started
  icacheMode : t.icache.mode = s.icache.mode
  image : t.icache.image = s.icache.image
  locked : t.icache.locked = s.icache.locked
  trace : t.trace = s.trace

/-- Every byte of memory reads as before. -/
def State.KeepsMemory (s t : State) : Prop := ∀ a : Word, t.readByte a = s.readByte a

/-- Every byte of memory outside the n bytes from an address on reads as before. -/
def State.KeepsMemoryOutside (s t : State) (a : Word) (n : Nat) : Prop :=
  ∀ x : Word, n ≤ (x - a).toNat → t.readByte x = s.readByte x

/-- Every general register but those of a destination of `width` words is as before. -/
def State.KeepsRegisters (s t : State) (o : Operand) (width : Nat) : Prop :=
  ∀ n : RegNum, (∀ k, k < width → o ≠ .reg (n - BitVec.ofNat 5 k)) → t.getReg n = s.getReg n

/-- The special function registers sf0 to sf2 but those of a destination of `width` words are as
before. -/
def State.KeepsSfrs (s t : State) (o : Operand) (width : Nat) : Prop :=
  ∀ n : BitVec 5, (∀ k, k < width → o ≠ .sfr (n - BitVec.ofNat 5 k)) → t.getSfr n = s.getSfr n

/-- Registers, special function registers and system state outside a destination. -/
structure State.KeepsOutside (s t : State) (o : Operand) (width : Nat) : Prop where
  registers : s.KeepsRegisters t o width
  sfrs : s.KeepsSfrs t o width
  system : s.KeepsSystem t

/-- Every bit of AC but the condition code is as before. -/
def State.KeepsAcButCc (s t : State) : Prop := t.ac &&& ~~~7#32 = s.ac &&& ~~~7#32

/-- Every bit of AC but the overflow flag is as before, and the flag is not cleared. -/
def State.KeepsAcButOf (s t : State) : Prop :=
  t.ac &&& ~~~0x100#32 = s.ac &&& ~~~0x100#32 ∧ (s.ac.getLsbD 8 = true → t.ac.getLsbD 8 = true)

/-- What user mode must not change (`10_state.md` R30, R48, R59, R70): the special function registers,
the control registers, the cached pointers, the DMA controller and the instruction cache. -/
structure State.SameControl (s t : State) : Prop where
  ipnd : t.intc.ipnd = s.intc.ipnd
  imsk : t.intc.imsk = s.intc.imsk
  swPriority : t.intc.swPriority = s.intc.swPriority
  dma : t.dma = s.dma
  ctrl : t.ctrl = s.ctrl
  tables : t.tables = s.tables
  config : t.config = s.config
  mode : t.icache.mode = s.icache.mode
  image : t.icache.image = s.icache.image
  locked : t.icache.locked = s.icache.locked

/-- A call action has entered a new frame (`44_call_return.md` R404): FP, SP and PFP of the frame, the
global registers but g15 kept, the caller's local registers with the return address in r2 saved as the
newest set of the register cache. -/
structure State.FrameEntered (s t : State) (frame link back target : Word) : Prop where
  ip : t.ip = target
  fp : t.fp = frame
  sp : t.sp = frame + 64
  pfp : t.pfp = back
  globals : ∀ n : RegNum, 16 ≤ n.toNat → n ≠ 31 → t.getReg n = s.getReg n
  saved : t.rcache.getLast? = some ⟨s.fp, s.locals.set 2 link⟩
  depth : t.depth = s.depth + 1

/-- The address at which the register cache keeps its set at a position from 5 on (`10_state.md` R72). -/
def cacheSlot (k : Nat) : Word := 0x400 - BitVec.ofNat 32 (64 * (k - 4))

/-- What a call leaves as it was: AC, TC and the control of the machine, and memory while the register
cache has room: all of it if the set is kept on chip, else all but the 64 bytes of internal data RAM
that take the set (`10_state.md` R72; log 16). -/
structure State.CallKeeps (s t : State) : Prop where
  ac : t.ac = s.ac
  tc : t.tc = s.tc
  control : s.SameControl t
  memory : s.turns = [] → s.mem.wf = true → s.rcache.length < s.config.regcacheSets →
    (s.rcache.length < 5 → s.KeepsMemory t) ∧
    (5 ≤ s.rcache.length → s.config.regcacheSets ≤ 15 →
      s.KeepsMemoryOutside t (cacheSlot s.rcache.length) 64 ∧
      ∀ (k : Fin 16) (c : SavedSet), t.rcache.getLast? = some c →
        t.readWord (cacheSlot s.rcache.length + BitVec.ofNat 32 (4 * k.val)) = c.words.get k)

/-- The instructions that may write AC.cc (`10_state.md` R43), with `sysctl`, whose reinitialization
loads AC from the PRCB (`70_reset_and_hazards.md` R602). -/
def writesCc : Instr → Bool
  | .b _ _ => false
  | .call _ _ => false
  | .ret => true
  | .bal _ _ => false
  | .bno _ _ => false
  | .bg _ _ => false
  | .be _ _ => false
  | .bge _ _ => false
  | .bl _ _ => false
  | .bne _ _ => false
  | .ble _ _ => false
  | .bo _ _ => false
  | .faultno => false
  | .faultg => false
  | .faulte => false
  | .faultge => false
  | .faultl => false
  | .faultne => false
  | .faultle => false
  | .faulto => false
  | .testno _ => false
  | .testg _ => false
  | .teste _ => false
  | .testge _ => false
  | .testl _ => false
  | .testne _ => false
  | .testle _ => false
  | .testo _ => false
  | .bbc _ _ _ _ => true
  | .cmpobg _ _ _ _ => true
  | .cmpobe _ _ _ _ => true
  | .cmpobge _ _ _ _ => true
  | .cmpobl _ _ _ _ => true
  | .cmpobne _ _ _ _ => true
  | .cmpoble _ _ _ _ => true
  | .bbs _ _ _ _ => true
  | .cmpibno _ _ _ _ => true
  | .cmpibg _ _ _ _ => true
  | .cmpibe _ _ _ _ => true
  | .cmpibge _ _ _ _ => true
  | .cmpibl _ _ _ _ => true
  | .cmpibne _ _ _ _ => true
  | .cmpible _ _ _ _ => true
  | .cmpibo _ _ _ _ => true
  | .notbit _ _ _ => false
  | .and _ _ _ => false
  | .andnot _ _ _ => false
  | .setbit _ _ _ => false
  | .notand _ _ _ => false
  | .xor _ _ _ => false
  | .or _ _ _ => false
  | .nor _ _ _ => false
  | .xnor _ _ _ => false
  | .not _ _ => false
  | .ornot _ _ _ => false
  | .clrbit _ _ _ => false
  | .notor _ _ _ => false
  | .nand _ _ _ => false
  | .alterbit _ _ _ => false
  | .addo _ _ _ => false
  | .addi _ _ _ => false
  | .subo _ _ _ => false
  | .subi _ _ _ => false
  | .shro _ _ _ => false
  | .shrdi _ _ _ => false
  | .shri _ _ _ => false
  | .shlo _ _ _ => false
  | .rotate _ _ _ => false
  | .shli _ _ _ => false
  | .cmpo _ _ => true
  | .cmpi _ _ => true
  | .concmpo _ _ => true
  | .concmpi _ _ => true
  | .cmpinco _ _ _ => true
  | .cmpinci _ _ _ => true
  | .cmpdeco _ _ _ => true
  | .cmpdeci _ _ _ => true
  | .scanbyte _ _ => true
  | .chkbit _ _ => true
  | .addc _ _ _ => true
  | .subc _ _ _ => true
  | .mov _ _ => false
  | .eshro _ _ _ => false
  | .movl _ _ => false
  | .movt _ _ => false
  | .movq _ _ => false
  | .atmod _ _ _ => false
  | .atadd _ _ _ => false
  | .sdma _ _ _ => false
  | .udma => false
  | .spanbit _ _ => true
  | .scanbit _ _ => true
  | .modac _ _ _ => true
  | .modify _ _ _ => false
  | .extract _ _ _ => false
  | .modtc _ _ _ => false
  | .modpc _ _ _ => false
  | .sysctl _ _ _ => true
  | .calls _ => false
  | .mark => false
  | .fmark => false
  | .flushreg => false
  | .syncf => false
  | .emul _ _ _ => false
  | .ediv _ _ _ => false
  | .mulo _ _ _ => false
  | .remo _ _ _ => false
  | .divo _ _ _ => false
  | .muli _ _ _ => false
  | .remi _ _ _ => false
  | .modi _ _ _ => false
  | .divi _ _ _ => false
  | .ldob _ _ => false
  | .stob _ _ => false
  | .bx _ => false
  | .balx _ _ => false
  | .callx _ => false
  | .ldos _ _ => false
  | .stos _ _ => false
  | .lda _ _ => false
  | .ld _ _ => false
  | .st _ _ => false
  | .ldl _ _ => false
  | .stl _ _ => false
  | .ldt _ _ => false
  | .stt _ _ => false
  | .ldq _ _ => false
  | .stq _ _ => false
  | .ldib _ _ => false
  | .stib _ _ => false
  | .ldis _ _ => false
  | .stis _ _ => false

/-! Initialization. -/

/-- The next input is a reset with power on (`70_reset_and_hazards.md` R600). -/
def State.resetDue (s : State) : Bool :=
  match s.intc.events with
  | [] => false
  | e :: _ => e.reset

/-- The state after an initialization with parameters `b` on a memory `m`: what every kind of
initialization leaves (R602). -/
structure State.Initialized (t : State) (b : Boot) (m : Memory) : Prop where
  ip : t.ip = b.firstIp &&& 0xFFFFFFFC
  ac : t.ac = b.initAc
  pctl : t.pctl = 0x001F2002
  tables : t.tables = b.tables
  config : t.config = b.config
  breakpoints : [t.ctrl.ipb0, t.ctrl.ipb1, t.ctrl.dab0, t.ctrl.dab1] =
    [0, 4, 8, 12].map fun k : Word => m.readWord false (b.tables.ctrlTableBase + k)
  interrupts : [t.ctrl.imap0, t.ctrl.imap1, t.ctrl.imap2, t.ctrl.icon] =
    [16, 20, 24, 28].map fun k : Word => m.readWord false (b.tables.ctrlTableBase + k)
  regions : ∀ k : Fin 16, t.ctrl.mcon.get k =
    m.readWord false (b.tables.ctrlTableBase + 32 + BitVec.ofNat 32 (4 * k.val))
  bpcon : t.ctrl.bpcon = m.readWord false (b.tables.ctrlTableBase + 96)
  tc : t.tc = m.readWord false (b.tables.ctrlTableBase + 100)
  bcon : t.ctrl.bcon = m.readWord false (b.tables.ctrlTableBase + 104) ||| 1
  nmiVector : m.wf = true → t.readWord 0 = m.readWord false (b.tables.intTableBase + 0x3E4)
  memory : m.wf = true → ∀ x : Word, 4 ≤ x.toNat → t.readByte x = m.read x.toNat
  swPriority : t.intc.swPriority = highestPriority (t.mem.readWord false b.tables.intTableBase)
  nmi : t.intc.nmiPending = false ∧ t.intc.nmiDepth = none
  fp : t.fp = (b.tables.intStackBase + 15) &&& 0xFFFFFFF0
  sp : t.sp = t.fp + 64
  rcache : t.rcache = []
  icache : t.icache.image = t.mem ∧ t.icache.locked = none ∧
    t.icache.mode = if b.icacheEnabled then .normal1k else .disabled

/-! The invariant. -/

/-- The instruction pointer is a word address (`10_state.md` R37). -/
def State.ipAligned (s : State) : Bool := s.ip.extractLsb' 0 2 == 0

/-- The register cache is within its size, 1 to 15 sets (`10_state.md` R71 to R73). -/
def State.rcacheOk (s : State) : Bool :=
  decide (1 ≤ s.config.regcacheSets) && decide (s.config.regcacheSets ≤ 15) &&
    decide (s.rcache.length ≤ s.config.regcacheSets)

/-- Parameters of a reset as the spec asks for them (`70_reset_and_hazards.md` R601; `10_state.md`
R71). -/
def Boot.ok (b : Boot) : Bool :=
  b.tables.aligned && decide (1 ≤ b.config.regcacheSets) && decide (b.config.regcacheSets ≤ 15)

/-- A locked block is 1 KByte or 512 bytes from an aligned address (`46_atomic_procmgmt.md` R468). -/
def LockedBlock.ok (b : LockedBlock) : Bool :=
  b.base.extractLsb' 0 4 == 0 && (b.words.length == 256 || b.words.length == 128)

/-- The locked part of the instruction cache: its shape, and that there is one while instructions
come from it (R468; `60_exceptions.md` R515). -/
def State.lockedOk (s : State) : Bool :=
  match s.icache.locked with
  | none => !s.icache.fetchingLocked
  | some b => b.ok

/-- The windows after `modtc` and `modpc` last at most four instructions
(`70_reset_and_hazards.md` R622). -/
def State.windowsOk (s : State) : Bool :=
  decide (s.trace.tcDelay.left ≤ 4) && decide (s.trace.teDelay.left ≤ 4)

/-- The invariant of the machine: memory and the cached image in canonical form, the instruction
pointer and the tables aligned, the register cache within its size, the locked block whole, the
windows bounded, the parameters of a reset as the spec asks. -/
def State.Inv (s : State) : Bool :=
  s.mem.wf && s.icache.image.wf && s.ipAligned && s.tables.aligned && s.rcacheOk && s.lockedOk &&
    s.windowsOk && s.boot.ok

end Sys2Proof.Machine
end

