-- ==== Sys2Proof/Certificates/Slice0/Obligations.lean ====
section
/-! DEFINITION. The statements for the provers. Where a statement says `s.untraced`, no trace event can
be detected; the statements on tracing say what is added where one is. -/

open Sys2Proof Sys2Proof.Machine

/-! Encoding. -/

/-- Decoding the words of any instruction gives the instruction back, with every operand at every
value that its field admits, and the first word says whether a second follows; so does the decoder on
the bytes of the words in little-endian order, which leaves the bytes after them. -/
def Obligations.DecodeEncode : Prop :=
  ∀ i : Instr, (∃ w rest, encode i = w :: rest ∧ decode w (rest.headD 0) = .ok i ∧
    hasSecondWord w = !rest.isEmpty ∧ rest.length ≤ 1) ∧
    ∀ after : List Byte,
      decodeBytes ((encode i).flatMap (bytesOfWord false) ++ after) = .ok (i, after)

/-- No encoding falls through to a neighbour: an instruction decoded from a word has the opcode of
that word, bits 31:24, and in the REG format also bits 10:7. That the opcode lies there, and that the
opcode bytes 40H to 7FH are the REG format, is log 7 (PRESUMED: R161 and R162 take it from general
knowledge). -/
def Obligations.DecodedOpcode : Prop :=
  ∀ (w d : Word) (i : Instr), decode w d = .ok i →
    ((encode i).headD 0).extractLsb' 24 8 = w.extractLsb' 24 8 ∧
    (0x40 ≤ opByte w → opByte w < 0x80 →
      ((encode i).headD 0).extractLsb' 7 4 = w.extractLsb' 7 4)

/-- Words written out from the encoding tables of the spec decode to their instructions. The places of
the fields in the words are log 7 (PRESUMED: the spec takes them from general knowledge). -/
def Obligations.DecodeKnownWords : Prop :=
  decode 0x08FFFFF0 0 = .ok (.b 0x3FFFFC false) ∧
  decode 0x3E00FFF0 0 = .ok (.cmpible (.lit 0) (.reg 3) 0x7FC false) ∧
  decode 0x59BE4015 0 = .ok (.addo (.reg 21) (.reg 25) (.reg 23)) ∧
  decode 0x59314983 0 = .ok (.subi (.lit 3) (.reg 5) (.reg 6)) ∧
  decode 0x6341C006 0 = .ok (.sdma (.reg 6) (.reg 7) (.reg 8)) ∧
  decode 0x61588108 0 = .ok (.atadd (.reg 8) (.reg 2) (.reg 11)) ∧
  decode 0x84003400 0x10 = .ok (.bx (.regDisp 0 0x10))

/-- A MEM word whose addressing mode is 0110, or whose scale code is above 4 in a mode that scales an
index, is rejected by name and raises OPERATION.INVALID_OPCODE; in the modes that scale nothing every
scale code decodes (the spec's decision D26). That the mode lies in bits 13:10 and the scale in bits 9:7
is log 7 (PRESUMED), that the instruction after such a word lies `s.fetch.len` bytes on the model's choice
(log 30). -/
def Obligations.ReservedAddressingRejected : Prop :=
  ∀ w d : Word, opByte w ∈ [0x80, 0x82, 0x84, 0x85, 0x86, 0x88, 0x8A, 0x8C, 0x90, 0x92, 0x98, 0x9A,
      0xA0, 0xA2, 0xB0, 0xB2, 0xC0, 0xC2, 0xC8, 0xCA] →
    (w.extractLsb' 10 4 = 6 → decode w d = .error .reservedMode) ∧
    (w.extractLsb' 10 4 = 7 ∨ w.extractLsb' 10 4 = 14 ∨ w.extractLsb' 10 4 = 15 →
      4 < (w.extractLsb' 7 3).toNat → decode w d = .error .reservedScale) ∧
    (w.extractLsb' 10 4 ∈ [4#4, 5, 12, 13] → ∃ i, decode w d = .ok i) ∧
    ∀ s : State, 0x400 ≤ s.ip.toNat → s.fetch.word = w → s.fetch.second = d →
      decode w d = .error .reservedMode ∨ decode w d = .error .reservedScale →
      s.runNext = takeEarlyFault s.fetch.s .invalidOpcode (s.ip + s.fetch.len)

/-! The step. -/

/-- A step runs the decoded instruction. `t` is the state once the inputs are sampled and no interrupt
is taken; with no reset due, the tables aligned, no trace fault pending, outside internal data RAM, with
the fetched words not written since the last consistency point, the step is the meaning of the
instruction at `t`. -/
def Obligations.StepRunsInstruction : Prop :=
  ∀ (s t : State) (i : Instr), s.resetDue = false → s.tables.aligned = true →
    s.sampleInputs.nmiReady = false →
    (s.sampleInputs.intc.nmiDepth.isSome = true ∧ s.sampleInputs = t) ∨
      (s.sampleInputs.intc.nmiDepth = none ∧ s.sampleInputs.intMode ≠ 3 ∧
        s.sampleInputs.deliver = .quiet t) →
    t.tfp = false → inDataRam t.ip = false → t.icache.fetchingLocked = false →
    t.icache.image.readWord (t.bigEndian t.ip) t.ip = t.readWord t.ip →
    t.icache.image.readWord (t.bigEndian (t.ip + 4)) (t.ip + 4) = t.readWord (t.ip + 4) →
    decode (t.readWord t.ip)
      (if hasSecondWord (t.readWord t.ip) then t.readWord (t.ip + 4) else 0) = .ok i →
    step s = exec i t

/-- Inputs at rest change nothing, and with nothing posted the delivery test takes nothing: then the
step starts from the state itself. A table that is not aligned stops the run (U5, log 23). -/
def Obligations.QuietInputs : Prop :=
  ∀ s : State, s.intc.events = [] →
    (s.intc.xint = 0xFF → s.turns = [] → s.sampleInputs = s ∧
      (s.intc.ipnd &&& s.intc.imsk = 0 → s.intc.swPriority = 0 → s.deliver = .quiet s)) ∧
    (s.tables.sptBase &&& 3 ≠ 0 ∨ s.tables.intTableBase &&& 3 ≠ 0 ∨
        s.tables.faultTableBase &&& 3 ≠ 0 ∨ s.tables.ctrlTableBase &&& 15 ≠ 0 →
      step s = .refused .misalignedTable)

/-- An instruction fetched from 0000H to 03FFH raises OPERATION.UNIMPLEMENTED when it would execute:
whatever word lies there, the fault is taken at that state; a branch to an instruction address in data
RAM completes; and the record of the fault has the data RAM address as fault IP (and the fault's type and
subtype). The branch target and the record are stated where no sum leaves the address space. (Which
instruction follows, and when other agents act, is said in UndefinedOpcodes, what a branch makes of low address bits in
BranchResults, what the reserved bytes of the record hold in FaultEntry.) -/
def Obligations.FetchFromDataRam : Prop :=
  ∀ s : State, s.ip.toNat < 0x400 →
    (∃ (next : Word) (ts : List (List Host.Cell)),
      s.runNext = takeFault s { s with turns := ts } .unimplemented next) ∧
    (s.mem.wf = true → ∀ t, s.runNext = .next t → t.fp ≠ 0 →
      t.readWord (t.fp - 4) = s.ip ∧ t.readWord (t.fp - 8) &&& 0x00FF00FF = 0x00020002) ∧
    (∀ (r : State) (disp : BitVec 22) (p : Bool) (efa : Efa), r.untraced = true → s.ip &&& 3 = 0 →
      ((r.ip.toNat : Int) + 4 * disp.toInt = s.ip.toNat →
        exec (.b disp p) r = .next (r.goTo s.ip)) ∧
      (r.address r.ip efa = s.ip → exec (.bx efa) r = .next (r.goTo s.ip)))

/-- Outside internal data RAM, words whose opcode or addressing mode is not defined raise
OPERATION.INVALID_OPCODE; no register, flag or byte of memory changes before the fault is taken. In
internal data RAM every word raises OPERATION.UNIMPLEMENTED. Other agents have no turn in the entry of
these faults (R585 step 5). (That the instruction after such a word is 4
or 8 bytes on, by the format of the word, is the model's choice: log 30.) -/
def Obligations.UndefinedOpcodes : Prop :=
  ∀ s : State,
    (∀ e : Reject, inDataRam s.ip = false → decode s.fetch.word s.fetch.second = .error e →
      s.runNext = takeEarlyFault s.fetch.s .invalidOpcode (s.ip + s.fetch.len) ∧
      s.fetch.s.ip = s.ip ∧ s.fetch.s.locals = s.locals ∧ s.fetch.s.globals = s.globals ∧
      s.fetch.s.ac = s.ac ∧ s.fetch.s.pctl = s.pctl ∧ s.fetch.s.tc = s.tc ∧ s.fetch.s.mem = s.mem) ∧
    (s.ip.toNat < 0x400 →
      s.runNext = takeEarlyFault s .unimplemented
        (s.ip + if hasSecondWord (s.readWord s.ip) then 8 else 4))

/-! Reset and the invariant. -/

/-- Initialization: power-up on any memory image, with any parameters; a reset while power is on, which
is a step of its own, retains IPND, stops the DMA channels and takes the parameters of the platform.
Both clear IMSK. The state after reset is the power-up with the parameters of log 1 (the model's choice,
as are zero for IPND and the general registers: logs 2 and 3) on a memory of zeros (log 4). FP, SP, the
empty caches and the software priority are the spec's decisions D3, D4, D7, D9, D10 and D11, the
little-endian reads D6 (log 37). That internal data RAM beyond word 0 keeps its contents over a reset is
the model's choice (log 41). -/
def Obligations.ResetState : Prop :=
  State.reset = State.powerUp Boot.initial [] ∧
  (∀ (b : Boot) (m : Memory),
    (State.powerUp b m).Initialized b m ∧ (State.powerUp b m).intc.imsk = 0 ∧
      (State.powerUp b m).dma.started = Vector.replicate 4 false) ∧
  (∀ (s : State) (e : ExternalEvent) (rest : List ExternalEvent),
    s.intc.events = e :: rest → e.reset = true →
    completesWith (step s) fun t =>
      ∃ m : Memory, t.Initialized s.boot m ∧ (e.writes = [] → m = s.mem) ∧ t.boot = s.boot ∧
        t.intc.imsk = 0 ∧ t.intc.ipnd = s.intc.ipnd ∧ t.intc.events = rest ∧
        t.intc.xint = e.xint ∧ t.intc.nmiPin = e.nmi ∧ t.dma.started = Vector.replicate 4 false)

/-- The machine right after reset satisfies the invariant. -/
def Obligations.ResetInvariant : Prop := State.reset.Inv = true

/-- Every step keeps the invariant: canonical memory, aligned instruction pointer and tables, the
register cache within its size, the locked block whole, the windows bounded, the parameters of a reset
as the spec asks for them. -/
def Obligations.StepKeepsInvariant : Prop :=
  ∀ s t : State, s.Inv = true → step s = .next t → t.Inv = true

/-! Memory. -/

/-- The byte order of a region: bit 22 of MCON[addr[31:28]], or of MCON0 while BCON.ctv = 0; the
values of words and halves by their bytes in both orders; no other bit of MCON matters to a value.
After initialization BCON.ctv is set. That a word which runs into another region takes the byte order of
the region of its first byte is the model's reading (log 36), that addresses wrap at the top of the
space the spec's decision D20. -/
def Obligations.ByteOrderOfReads : Prop :=
  ∀ (s : State) (a : Word),
    (s.ctrl.bcon.getLsbD 0 = true →
      s.bigEndian a = (s.ctrl.mcon.get (a.extractLsb' 28 4).toFin).getLsbD 22) ∧
    (s.ctrl.bcon.getLsbD 0 = false → s.bigEndian a = s.ctrl.mcon[0].getLsbD 22) ∧
    (∀ k : Nat, k < 4 → s.bigEndian a = false →
      (s.readWord a).extractLsb' (8 * k) 8 = s.readByte (a + BitVec.ofNat 32 k)) ∧
    (∀ k : Nat, k < 4 → s.bigEndian a = true →
      (s.readWord a).extractLsb' (24 - 8 * k) 8 = s.readByte (a + BitVec.ofNat 32 k)) ∧
    (∀ k : Nat, k < 2 → s.bigEndian a = false →
      (s.readHalf a).extractLsb' (8 * k) 8 = s.readByte (a + BitVec.ofNat 32 k)) ∧
    (∀ k : Nat, k < 2 → s.bigEndian a = true →
      (s.readHalf a).extractLsb' (8 - 8 * k) 8 = s.readByte (a + BitVec.ofNat 32 k)) ∧
    (∀ m : Vector Word 16,
      (∀ k : Fin 16, (m.get k).getLsbD 22 = (s.ctrl.mcon.get k).getLsbD 22) →
      let u := { s with ctrl := { s.ctrl with mcon := m } }
      u.readByte a = s.readByte a ∧ u.readHalf a = s.readHalf a ∧ u.readWord a = s.readWord a) ∧
    State.reset.ctrl.bcon.getLsbD 0 = true ∧
    ∀ first prcb : Word, (s.reinitialize first prcb).ctrl.bcon.getLsbD 0 = true

/-- A word stored puts its bytes at four addresses in the byte order of the region, leaves every other
byte, and is read back whole, wherever the word lies: a word that runs into another region takes the
byte order of the region of its first byte (log 36), and addresses wrap at the top of the space (the
spec's decision D20). -/
def Obligations.WordStored : Prop :=
  ∀ (s : State) (a v : Word), s.mem.wf = true →
    (∀ k : Nat, k < 4 → (s.writeWord a v).readByte (a + BitVec.ofNat 32 k) =
      v.extractLsb' (if s.bigEndian a then 24 - 8 * k else 8 * k) 8) ∧
    (∀ b : Word, 4 ≤ (b - a).toNat → (s.writeWord a v).readByte b = s.readByte b) ∧
    (s.writeWord a v).readWord a = v

/-- The nine addressing modes. -/
def Obligations.EffectiveAddresses : Prop :=
  ∀ (s : State) (ip : Word) (a i : RegNum) (k : Scale) (o : BitVec 12) (d : Word),
    s.address ip (.absOffset o) = o.zeroExtend 32 ∧
    s.address ip (.absDisp d) = d ∧
    s.address ip (.regInd a) = s.getReg a ∧
    s.address ip (.regOffset a o) = s.getReg a + o.zeroExtend 32 ∧
    s.address ip (.regDisp a d) = s.getReg a + d ∧
    s.address ip (.regIndex a i k) = s.getReg a + s.getReg i * BitVec.ofNat 32 (2 ^ k.code.toNat) ∧
    s.address ip (.regIndexDisp a i k d) =
      s.getReg a + s.getReg i * BitVec.ofNat 32 (2 ^ k.code.toNat) + d ∧
    s.address ip (.indexDisp i k d) = s.getReg i * BitVec.ofNat 32 (2 ^ k.code.toNat) + d ∧
    s.address ip (.ipDisp d) = ip + d + 8

/-! Loads and stores. -/

/-- The loads of one register and `lda`: the value loaded, zero- or sign-extended; the address is
computed from the old registers; all else as before. An unaligned load that other agents come between
is made of single bytes, each read when its request is made: that is log 40 (DESIGN CHOICE), with the
rows of R109 that the spec derives (N15). -/
def Obligations.LoadResults : Prop :=
  ∀ (efa : Efa) (dst : RegNum) (s : State), s.untraced = true →
    let a := s.address s.ip efa
    let u := s.advance efa.len
    (s.canAccess a 4 = true → s.whole a 4 = true →
      exec (.ld efa dst) s = .next (u.setReg dst (s.readWord a))) ∧
    exec (.ldob efa dst) s = .next (u.setReg dst ((s.readByte a).zeroExtend 32)) ∧
    exec (.ldib efa dst) s = .next (u.setReg dst ((s.readByte a).signExtend 32)) ∧
    (s.canAccess a 2 = true → s.whole a 2 = true →
      exec (.ldos efa dst) s = .next (u.setReg dst ((s.readHalf a).zeroExtend 32)) ∧
      exec (.ldis efa dst) s = .next (u.setReg dst ((s.readHalf a).signExtend 32))) ∧
    exec (.lda efa dst) s = .next (u.setReg dst a) ∧
    let s1 := s.turn
    let s2 := s1.turn
    let s3 := s2.turn
    let word : Word := s3.readByte (a + 3) ++ s2.readByte (a + 2) ++ s1.readByte (a + 1) ++ s.readByte a
    let half : BitVec 16 := s1.readByte (a + 1) ++ s.readByte a
    (a.toNat % 4 ≠ 0 → s.canAccess a 4 = true →
      exec (.ld efa dst) s = .next ((s3.advance efa.len).setReg dst word)) ∧
    (a.toNat % 2 ≠ 0 → s.canAccess a 2 = true →
      exec (.ldos efa dst) s = .next ((s1.advance efa.len).setReg dst (half.zeroExtend 32)) ∧
      exec (.ldis efa dst) s = .next ((s1.advance efa.len).setReg dst (half.signExtend 32)))

/-- The stores of one register: what is stored where; all else as before. `stib` and `stis` store the
low bytes whether or not the value fits; if it does not fit, AC.of is set with AC.om = 1, and with
AC.om = 0 the integer-overflow fault follows the store. An unaligned store is made of single bytes, and
other agents may come between them, and between a store that overflows and the entry of its fault: that
is log 40 (DESIGN CHOICE), with the rows of R109 that the spec derives (N15). -/
def Obligations.StoreResults : Prop :=
  ∀ (src : RegNum) (efa : Efa) (s : State), s.untraced = true →
    let a := s.address s.ip efa
    let u := s.advance efa.len
    let v := s.getReg src
    let byte (k : Nat) : Byte := v.extractLsb' (8 * k) 8
    let ends (t : State) (fits : Prop) [Decidable fits] : Host.Outcome State Fault Refusal :=
      if fits then .next t
      else if s.om then .next { t with ac := s.ac ||| 0x100 }
      else takeFault s t.turn .integerOverflow (s.ip + efa.len)
    (s.canStore a 4 = true → s.whole a 4 = true →
      exec (.st src efa) s = .next (u.writeWord a (s.getReg src))) ∧
    (s.canStore a 1 = true →
      exec (.stob src efa) s = .next (u.writeByte a ((s.getReg src).truncate 8))) ∧
    (s.canStore a 2 = true → s.whole a 2 = true →
      exec (.stos src efa) s = .next (u.writeHalf a ((s.getReg src).truncate 16))) ∧
    (s.canStore a 1 = true →
      exec (.stib src efa) s =
        ends (u.writeByte a (v.truncate 8)) (-128 ≤ v.toInt ∧ v.toInt ≤ 127)) ∧
    (s.canStore a 2 = true → s.whole a 2 = true →
      exec (.stis src efa) s =
        ends (u.writeHalf a (v.truncate 16)) (-32768 ≤ v.toInt ∧ v.toInt ≤ 32767)) ∧
    (a.toNat % 4 ≠ 0 → s.canStore a 4 = true →
      exec (.st src efa) s =
        .next ((((u.writeByte a (byte 0)).turn.writeByte (a + 1) (byte 1)).turn.writeByte (a + 2)
          (byte 2)).turn.writeByte (a + 3) (byte 3))) ∧
    (a.toNat % 2 ≠ 0 → s.canStore a 2 = true →
      exec (.stos src efa) s =
        .next ((u.writeByte a (byte 0)).turn.writeByte (a + 1) (byte 1)) ∧
      exec (.stis src efa) s =
        ends ((u.writeByte a (byte 0)).turn.writeByte (a + 1) (byte 1))
          (-32768 ≤ v.toInt ∧ v.toInt ≤ 32767))

/-- The loads and stores of register groups, in both byte orders: word k, at the address plus 4k, goes to
or comes from register n + k; all else as before. An access that other agents come between is made of
the bytes that its requests read or write one after the other: which requests an access makes is log 40
(DESIGN CHOICE), with the rows of R109 that the spec derives (N15). That each word takes the byte order
of the region of its own address is log 36, that addresses wrap the spec's decision D20. -/
def Obligations.GroupResults : Prop :=
  ∀ (n : RegNum) (efa : Efa) (s : State), s.untraced = true →
    let a := s.address s.ip efa
    let w (k : Nat) : Word := s.readWord (a + BitVec.ofNat 32 (4 * k))
    let r (k : Nat) : Word := s.getReg (n + BitVec.ofNat 5 k)
    let u := s.advance efa.len
    (s.whole a 8 = true → n.toNat % 2 = 0 → s.canAccess a 8 = true → exec (.ldl efa n) s =
      .next ((u.setReg n (w 0)).setReg (n + 1) (w 1))) ∧
    (s.whole a 12 = true → n.toNat % 4 = 0 → s.canAccess a 12 = true → exec (.ldt efa n) s =
      .next (((u.setReg n (w 0)).setReg (n + 1) (w 1)).setReg (n + 2) (w 2))) ∧
    (s.whole a 16 = true → n.toNat % 4 = 0 → s.canAccess a 16 = true → exec (.ldq efa n) s =
      .next ((((u.setReg n (w 0)).setReg (n + 1) (w 1)).setReg (n + 2) (w 2)).setReg (n + 3) (w 3))) ∧
    (s.whole a 8 = true → n.toNat % 2 = 0 → s.canStore a 8 = true →
      exec (.stl n efa) s = .next (u.writeWords a [r 0, r 1])) ∧
    (s.whole a 12 = true → n.toNat % 4 = 0 → s.canStore a 12 = true →
      exec (.stt n efa) s = .next (u.writeWords a [r 0, r 1, r 2])) ∧
    (s.whole a 16 = true → n.toNat % 4 = 0 → s.canStore a 16 = true →
      exec (.stq n efa) s = .next (u.writeWords a [r 0, r 1, r 2, r 3])) ∧
    (s.mem.wf = true → ∀ (ws : List Word) (k : Nat) (h : k < ws.length), ws.length ≤ 4 →
      (u.writeWords a ws).readWord (a + BitVec.ofNat 32 (4 * k)) = ws[k]) ∧
    let got (m : Nat) : List Byte × State := s.readRequests a m 0 m
    let v (bs : List Byte) (k : Nat) : Word :=
      wordOfMem (s.bigEndian (a + BitVec.ofNat 32 (4 * k))) (bs.getD (4 * k) 0)
        (bs.getD (4 * k + 1) 0) (bs.getD (4 * k + 2) 0) (bs.getD (4 * k + 3) 0)
    let b (k : Nat) : List Byte := bytesOfWord (s.bigEndian (a + BitVec.ofNat 32 (4 * k))) (r k)
    (n.toNat % 2 = 0 → s.canAccess a 8 = true → exec (.ldl efa n) s =
      .next ((((got 8).2.advance efa.len).setReg n (v (got 8).1 0)).setReg (n + 1)
        (v (got 8).1 1))) ∧
    (n.toNat % 4 = 0 → s.canAccess a 12 = true → exec (.ldt efa n) s =
      .next (((((got 12).2.advance efa.len).setReg n (v (got 12).1 0)).setReg (n + 1)
        (v (got 12).1 1)).setReg (n + 2) (v (got 12).1 2))) ∧
    (n.toNat % 4 = 0 → s.canAccess a 16 = true → exec (.ldq efa n) s =
      .next ((((((got 16).2.advance efa.len).setReg n (v (got 16).1 0)).setReg (n + 1)
        (v (got 16).1 1)).setReg (n + 2) (v (got 16).1 2)).setReg (n + 3) (v (got 16).1 3))) ∧
    (n.toNat % 2 = 0 → s.canStore a 8 = true →
      exec (.stl n efa) s = .next (u.writeRequests a 8 0 (b 0 ++ b 1))) ∧
    (n.toNat % 4 = 0 → s.canStore a 12 = true →
      exec (.stt n efa) s = .next (u.writeRequests a 12 0 (b 0 ++ b 1 ++ b 2))) ∧
    (n.toNat % 4 = 0 → s.canStore a 16 = true →
      exec (.stq n efa) s = .next (u.writeRequests a 16 0 (b 0 ++ b 1 ++ b 2 ++ b 3)))

/-- The frame of the stores, no other agent coming between their requests: every byte outside the
stored ones, every register, special function register and control is as before; AC but its overflow
flag too. -/
def Obligations.StoreFrame : Prop :=
  ∀ (src : RegNum) (efa : Efa) (s t : State), s.untraced = true → s.mem.wf = true →
    ∀ p ∈ [(Instr.st src efa, 4, 1), (Instr.stob src efa, 1, 1), (Instr.stos src efa, 2, 1),
        (Instr.stib src efa, 1, 1), (Instr.stis src efa, 2, 1), (Instr.stl src efa, 8, 2),
        (Instr.stt src efa, 12, 4), (Instr.stq src efa, 16, 4)],
      src.toNat % p.2.2 = 0 → s.canStore (s.address s.ip efa) p.2.1 = true →
      s.whole (s.address s.ip efa) p.2.1 = true → s.om = true →
      exec p.1 s = .next t →
      s.KeepsMemoryOutside t (s.address s.ip efa) p.2.1 ∧ s.KeepsOutside t (.lit 0) 0 ∧
        s.KeepsAcButOf t

/-- Where a load or a store faults nothing is written: an unaligned access with FAULT_ON_UNALIGNED
raises OPERATION.UNALIGNED, else a user-mode store to protected internal data RAM raises
TYPE.MISMATCH. An unaligned access of a big-endian region without FAULT_ON_UNALIGNED stops (U3,
log 23). The order of these checks is the spec's decision D18 (log 29), that a store of which one byte is
protected faults whole its decision D22. A misaligned register group (D21) is found before the
instruction executes: other agents have no turn in the entry of its fault (R585 step 5). -/
def Obligations.AccessFaults : Prop :=
  ∀ (n : RegNum) (efa : Efa) (s : State),
    let a := s.address s.ip efa
    let loads := [(Instr.ld efa n, 4, 1), (Instr.ldos efa n, 2, 1), (Instr.ldis efa n, 2, 1),
        (Instr.ldl efa n, 8, 2), (Instr.ldt efa n, 12, 4), (Instr.ldq efa n, 16, 4)]
    let stores := [(Instr.st n efa, 4, 1), (Instr.stob n efa, 1, 1), (Instr.stos n efa, 2, 1),
        (Instr.stib n efa, 1, 1), (Instr.stis n efa, 2, 1), (Instr.stl n efa, 8, 2),
        (Instr.stt n efa, 12, 4), (Instr.stq n efa, 16, 4)]
    (∀ p ∈ loads ++ stores, n.toNat % p.2.2 = 0 →
      a.toNat % naturalBoundary p.2.1 ≠ 0 →
      (s.config.faultOnUnaligned = true →
        exec p.1 s = takeFault s s .unaligned (s.ip + efa.len)) ∧
      (s.config.faultOnUnaligned = false → s.bigEndian a = true →
        exec p.1 s = .fault .unalignedBigEndian)) ∧
    (∀ p ∈ stores, n.toNat % p.2.2 = 0 → s.canAccess a p.2.1 = true → s.em = false →
      s.protectedRange a p.2.1 = true →
      exec p.1 s = takeFault s s .typeMismatch (s.ip + efa.len)) ∧
    (∀ p ∈ loads ++ stores, n.toNat % p.2.2 ≠ 0 →
      exec p.1 s = takeEarlyFault s .invalidOperand (s.ip + efa.len))

/-! Moves, arithmetic and logic. -/

/-- `mov`, `movl`, `movt`, `movq`: word k of the source goes to word k of the destination; a literal
is zero-extended. -/
def Obligations.MoveResults : Prop :=
  ∀ (src : Src) (dst : Dst) (s : State), s.untraced = true →
    let v (k : Nat) : Word := s.value (srcOperand src) k
    let done (ws : List Word) : Host.Outcome State Fault Refusal :=
      .next ((s.advance 4).putWords (dstOperand dst) 0 ws)
    (s.canUseAll [(srcOperand src).one, (dstOperand dst).one] = true →
      exec (.mov src dst) s = done [v 0]) ∧
    (s.canUseAll [(srcOperand src).two, (dstOperand dst).two] = true →
      exec (.movl src dst) s = done [v 0, v 1]) ∧
    (s.canUseAll [(srcOperand src).three, (dstOperand dst).three] = true →
      exec (.movt src dst) s = done [v 0, v 1, v 2]) ∧
    (s.canUseAll [(srcOperand src).four, (dstOperand dst).four] = true →
      exec (.movq src dst) s = done [v 0, v 1, v 2, v 3])

/-- What operands stand for: a register, a zero-extended literal, a special function register; and
what writing a destination changes. -/
def Obligations.OperandValues : Prop :=
  ∀ (s : State) (n m : RegNum) (l : BitVec 5) (v : Word),
    s.value (.reg n) 0 = s.getReg n ∧
    s.value (.lit l) 0 = l.zeroExtend 32 ∧ s.value (.lit l) 1 = 0 ∧
    s.value (.sfr 0) 0 = s.intc.ipnd ∧ s.value (.sfr 1) 0 = s.intc.imsk ∧
    s.value (.sfr 2) 0 = s.dma.dmac ∧
    (s.putValue (.reg n) 0 v).getReg m = (if m = n then v else s.getReg m) ∧
    (s.putValue (.sfr 0) 0 v).intc.ipnd = v ∧ (s.putValue (.sfr 1) 0 v).intc.imsk = v ∧
    (s.putValue (.sfr 2) 0 v).dma.dmac = v

/-- The eleven logical instructions with their opcodes; src2 is the first operand of each expression,
and a literal operand is zero-extended. That the opcode lies in bits 31:24 and 10:7 of the word is log 7
(PRESUMED: R162 takes it from general knowledge). -/
def Obligations.LogicalResults : Prop :=
  ∀ (src1 src2 : Src) (dst : Dst) (s : State), s.untraced = true →
    (∀ l : BitVec 5, s.value (srcOperand (.lit l)) 0 = l.zeroExtend 32) ∧
    (∀ p ∈ [(0x581#12, Instr.and src1 src2 dst), (0x582, .andnot src1 src2 dst),
        (0x584, .notand src1 src2 dst), (0x586, .xor src1 src2 dst), (0x587, .or src1 src2 dst),
        (0x588, .nor src1 src2 dst), (0x589, .xnor src1 src2 dst), (0x58A, .not src1 dst),
        (0x58B, .ornot src1 src2 dst), (0x58D, .notor src1 src2 dst), (0x58E, .nand src1 src2 dst)],
      let w := (encode p.2).headD 0
      w.extractLsb' 24 8 ++ w.extractLsb' 7 4 = p.1) ∧
    let x := s.value (srcOperand src1) 0
    let y := s.value (srcOperand src2) 0
    let done (v : Word) : Host.Outcome State Fault Refusal :=
      .next ((s.advance 4).putValue (dstOperand dst) 0 v)
    (s.canUseAll [(srcOperand src1).one, (dstOperand dst).one] = true →
      exec (.not src1 dst) s = done (~~~x)) ∧
    (s.canUseAll [(srcOperand src1).one, (srcOperand src2).one, (dstOperand dst).one] = true →
      exec (.and src1 src2 dst) s = done (y &&& x) ∧
      exec (.andnot src1 src2 dst) s = done (y &&& ~~~x) ∧
      exec (.notand src1 src2 dst) s = done (~~~y &&& x) ∧
      exec (.xor src1 src2 dst) s = done ((y ||| x) &&& ~~~(y &&& x)) ∧
      exec (.or src1 src2 dst) s = done (y ||| x) ∧
      exec (.nor src1 src2 dst) s = done (~~~y &&& ~~~x) ∧
      exec (.xnor src1 src2 dst) s = done (~~~(y ||| x) ||| (y &&& x)) ∧
      exec (.ornot src1 src2 dst) s = done (y ||| ~~~x) ∧
      exec (.notor src1 src2 dst) s = done (~~~y ||| x) ∧
      exec (.nand src1 src2 dst) s = done (~~~y ||| ~~~x))

/-- The bit instructions, `bbc` and `bbs` among them, take the bit position from src1 and the word from
src2, and use the low five bits of the position: 32 names bit 0 and FFFFFFFFH bit 31. `alterbit` takes
the bit from condition-code bit 1; `chkbit` and `scanbyte` set the condition code only. (Where `bbc` and
`bbs` go is said in CompareBranchResults.) -/
def Obligations.BitResults : Prop :=
  ∀ (src1 src2 : Src) (dst : Dst) (c1 : CSrc1) (c2 : CSrc2) (d : BitVec 11) (p : Bool) (s : State),
    s.untraced = true →
    let bit (pos : Word) : Word := BitVec.ofNat 32 (2 ^ (pos.toNat % 32))
    let x := s.value (srcOperand src1) 0
    let y := s.value (srcOperand src2) 0
    let done (v : Word) : Host.Outcome State Fault Refusal :=
      .next ((s.advance 4).putValue (dstOperand dst) 0 v)
    bit 32 = 1 ∧ bit 0xFFFFFFFF = 0x80000000 ∧
    (s.canUseAll [(srcOperand src1).one, (srcOperand src2).one, (dstOperand dst).one] = true →
      exec (.setbit src1 src2 dst) s = done (y ||| bit x) ∧
      exec (.clrbit src1 src2 dst) s = done (y &&& ~~~bit x) ∧
      exec (.notbit src1 src2 dst) s = done (y ^^^ bit x) ∧
      exec (.alterbit src1 src2 dst) s =
        done (if s.cc.getLsbD 1 = false then y &&& ~~~bit x else y ||| bit x)) ∧
    (s.canUseAll [(srcOperand src1).one, (srcOperand src2).one] = true →
      exec (.chkbit src1 src2) s =
        .next ((s.advance 4).setCc (if y &&& bit x = 0 then 0 else 2)) ∧
      exec (.scanbyte src1 src2) s =
        .next ((s.advance 4).setCc
          (if ∃ k : Fin 4, x.extractLsb' (8 * k.val) 8 = y.extractLsb' (8 * k.val) 8 then 2
            else 0))) ∧
    (s.canUseAll [(csrc1Operand c1).one, (csrc2Operand c2).one] = true →
      let u := s.value (csrc1Operand c1) 0
      let v := s.value (csrc2Operand c2) 0
      (completesWith (exec (.bbc c1 c2 d p) s) fun t => t.cc = if v &&& bit u = 0 then 2 else 0) ∧
      (completesWith (exec (.bbs c1 c2 d p) s) fun t => t.cc = if v &&& bit u = 0 then 0 else 2))

/-- `scanbit` finds the most significant set bit and `spanbit` the most significant clear one;
`extract` and `modify` bit by bit. -/
def Obligations.FieldResults : Prop :=
  ∀ (src1 src2 : Src) (dst : Dst) (n : RegNum) (s : State), s.untraced = true →
    let x := s.value (srcOperand src1) 0
    let y := s.value (srcOperand src2) 0
    (s.canUseAll [(srcOperand src1).one, (dstOperand dst).one] = true →
      let done (v : Word) (c : BitVec 3) : Host.Outcome State Fault Refusal :=
        .next (((s.advance 4).putValue (dstOperand dst) 0 v).setCc c)
      (x = 0 → exec (.scanbit src1 dst) s = done 0xFFFFFFFF 0) ∧
      (∀ k : Nat, k < 32 → x.getLsbD k = true → (∀ j, k < j → x.getLsbD j = false) →
        exec (.scanbit src1 dst) s = done (BitVec.ofNat 32 k) 2) ∧
      (x = 0xFFFFFFFF → exec (.spanbit src1 dst) s = done 0xFFFFFFFF 0) ∧
      (∀ k : Nat, k < 32 → x.getLsbD k = false → (∀ j, k < j → j < 32 → x.getLsbD j = true) →
        exec (.spanbit src1 dst) s = done (BitVec.ofNat 32 k) 2)) ∧
    (s.canUseAll [(srcOperand src1).one, (srcOperand src2).one] = true →
      (∃ v, exec (.extract src1 src2 (.reg n)) s = .next ((s.advance 4).setReg n v) ∧
        ∀ j : Nat, v.getLsbD j =
          (decide (j < y.toNat % 32) && (s.getReg n).getLsbD (x.toNat % 32 + j))) ∧
      (∃ v, exec (.modify src1 src2 (.reg n)) s = .next ((s.advance 4).setReg n v) ∧
        ∀ j : Nat, v.getLsbD j =
          (if x.getLsbD j then y.getLsbD j else (s.getReg n).getLsbD j)))

/-- The ordinal instructions compute modulo 2^32; no flag changes. That a shift count is unsigned, so
that one with bit 31 set is large, is the spec's decision D28 (log 17). -/
def Obligations.OrdinalResults : Prop :=
  ∀ (src1 src2 : Src) (dst : Dst) (s : State), s.untraced = true →
    s.canUseAll [(srcOperand src1).one, (srcOperand src2).one, (dstOperand dst).one] = true →
    let x := (s.value (srcOperand src1) 0).toNat
    let y := (s.value (srcOperand src2) 0).toNat
    let done (v : Nat) : Host.Outcome State Fault Refusal :=
      .next ((s.advance 4).putValue (dstOperand dst) 0 (BitVec.ofNat 32 v))
    exec (.addo src1 src2 dst) s = done (y + x) ∧
    exec (.subo src1 src2 dst) s = done (y + 2 ^ 32 - x) ∧
    exec (.mulo src1 src2 dst) s = done (y * x) ∧
    exec (.shlo src1 src2 dst) s = done (if x < 32 then y * 2 ^ x else 0) ∧
    exec (.shro src1 src2 dst) s = done (if x < 32 then y / 2 ^ x else 0) ∧
    exec (.rotate src1 src2 dst) s = done (y * 2 ^ (x % 32) + y / 2 ^ (32 - x % 32))

/-- The integer instructions deliver the low 32 bits of the exact result; if it does not fit, AC.of is
set with AC.om = 1, and with AC.om = 0 the integer-overflow fault follows the write. -/
def Obligations.IntegerResults : Prop :=
  ∀ (src1 src2 : Src) (dst : Dst) (s : State), s.untraced = true →
    s.canUseAll [(srcOperand src1).one, (srcOperand src2).one, (dstOperand dst).one] = true →
    let x := (s.value (srcOperand src1) 0).toInt
    let y := (s.value (srcOperand src2) 0).toInt
    let ends (r : Int) : Host.Outcome State Fault Refusal :=
      let u := (s.advance 4).putValue (dstOperand dst) 0 (BitVec.ofInt 32 r)
      if -(2 ^ 31) ≤ r ∧ r ≤ 2 ^ 31 - 1 then .next u
      else if s.om then .next { u with ac := s.ac ||| 0x100 }
      else takeFault s u .integerOverflow (s.ip + 4)
    exec (.addi src1 src2 dst) s = ends (y + x) ∧
    exec (.subi src1 src2 dst) s = ends (y - x) ∧
    exec (.muli src1 src2 dst) s = ends (y * x) ∧
    (x ≠ 0 → exec (.divi src1 src2 dst) s = ends (Int.tdiv y x))

/-- `shri` rounds down and `shrdi` toward zero, a count above 32 counting as 32. `shli`: where
src * 2^len fits the result is that product; where it does not, the value is src shifted by the largest
count that keeps it in range, and overflow is signalled. That a count is unsigned is the spec's decision
D28 (log 17). -/
def Obligations.ShiftIntegerResults : Prop :=
  ∀ (src1 src2 : Src) (dst : Dst) (s : State), s.untraced = true →
    s.canUseAll [(srcOperand src1).one, (srcOperand src2).one, (dstOperand dst).one] = true →
    let n := min (s.value (srcOperand src1) 0).toNat 32
    let y := (s.value (srcOperand src2) 0).toInt
    let fits (r : Int) : Prop := -(2 ^ 31) ≤ r ∧ r ≤ 2 ^ 31 - 1
    let u (r : Int) : State := (s.advance 4).putValue (dstOperand dst) 0 (BitVec.ofInt 32 r)
    exec (.shri src1 src2 dst) s = .next (u (y / 2 ^ n)) ∧
    exec (.shrdi src1 src2 dst) s = .next (u (Int.tdiv y (2 ^ n))) ∧
    (fits (y * 2 ^ n) → exec (.shli src1 src2 dst) s = .next (u (y * 2 ^ n))) ∧
    (∀ k, k < n → fits (y * 2 ^ k) → ¬fits (y * 2 ^ (k + 1)) →
      exec (.shli src1 src2 dst) s =
        if s.om then .next { u (y * 2 ^ k) with ac := s.ac ||| 0x100 }
        else takeFault s (u (y * 2 ^ k)) .integerOverflow (s.ip + 4))

/-- `addc` and `subc`: the 33-bit sum, its carry in condition-code bit 1, the signed overflow in bit 0,
bit 2 zero; the carry of `subc` is a not-borrow. -/
def Obligations.CarryResults : Prop :=
  ∀ (src1 src2 : Src) (dst : Dst) (s : State), s.untraced = true →
    s.canUseAll [(srcOperand src1).one, (srcOperand src2).one, (dstOperand dst).one] = true →
    let x := s.value (srcOperand src1) 0
    let y := s.value (srcOperand src2) 0
    let cin : Nat := if s.cc.getLsbD 1 then 1 else 0
    let ends (total : Nat) (signed : Int) : Host.Outcome State Fault Refusal :=
      .next (((s.advance 4).putValue (dstOperand dst) 0 (BitVec.ofNat 32 total)).setCc
        ((if 2 ^ 32 ≤ total then 2 else 0) |||
          (if signed < -(2 ^ 31) ∨ 2 ^ 31 - 1 < signed then 1 else 0)))
    exec (.addc src1 src2 dst) s = ends (y.toNat + x.toNat + cin) (y.toInt + x.toInt + cin) ∧
    exec (.subc src1 src2 dst) s =
      ends (y.toNat + (2 ^ 32 - 1 - x.toNat) + cin) (y.toInt - x.toInt - 1 + cin)

/-- Division by src1 not 0: quotient and remainder of ordinals, the remainder of integers with the
sign of src2, the modulo with the sign of src1. In the one case where the quotient of `remi` does not
fit, the remainder is 0 and overflow is signalled (the spec's decision D27, unverified: log 31). -/
def Obligations.DivisionResults : Prop :=
  ∀ (src1 src2 : Src) (dst : Dst) (s : State), s.untraced = true →
    s.canUseAll [(srcOperand src1).one, (srcOperand src2).one, (dstOperand dst).one] = true →
    let x := s.value (srcOperand src1) 0
    let y := s.value (srcOperand src2) 0
    let done (v : Word) : Host.Outcome State Fault Refusal :=
      .next ((s.advance 4).putValue (dstOperand dst) 0 v)
    x ≠ 0 →
    exec (.divo src1 src2 dst) s = done (BitVec.ofNat 32 (y.toNat / x.toNat)) ∧
    exec (.remo src1 src2 dst) s = done (BitVec.ofNat 32 (y.toNat % x.toNat)) ∧
    (¬(x = 0xFFFFFFFF ∧ y = 0x80000000) →
      exec (.remi src1 src2 dst) s = done (BitVec.ofInt 32 (Int.tmod y.toInt x.toInt))) ∧
    exec (.modi src1 src2 dst) s = done (BitVec.ofInt 32 (Int.fmod y.toInt x.toInt)) ∧
    (x = 0xFFFFFFFF ∧ y = 0x80000000 → exec (.remi src1 src2 dst) s =
      let u := (s.advance 4).putValue (dstOperand dst) 0 0
      if s.om then .next { u with ac := s.ac ||| 0x100 }
      else takeFault s u .integerOverflow (s.ip + 4))

/-- A divisor of 0 raises ARITHMETIC.ZERO_DIVIDE before anything is written. -/
def Obligations.ZeroDivide : Prop :=
  ∀ (src1 src2 : Src) (dst : Dst) (s : State), s.value (srcOperand src1) 0 = 0 →
    (s.canUseAll [(srcOperand src1).one, (srcOperand src2).one, (dstOperand dst).one] = true →
      ∀ i ∈ [Instr.divo src1 src2 dst, Instr.divi src1 src2 dst, Instr.remo src1 src2 dst,
          Instr.remi src1 src2 dst, Instr.modi src1 src2 dst],
        exec i s = takeFault s s .zeroDivide (s.ip + 4)) ∧
    (s.canUseAll [(srcOperand src1).one, (srcOperand src2).two, (dstOperand dst).two] = true →
      exec (.ediv src1 src2 dst) s = takeFault s s .zeroDivide (s.ip + 4))

/-- `emul`, `ediv` and `eshro` on 64-bit operands, low word first. Where the quotient of `ediv` does
not fit, two words are written whose values nothing fixes, and everything else is as before. -/
def Obligations.ExtendedResults : Prop :=
  ∀ (src1 src2 : Src) (dst : Dst) (s : State), s.untraced = true →
    let x := (s.value (srcOperand src1) 0).toNat
    let y := (s.value (srcOperand src2) 0).toNat
    let n := (s.value (srcOperand src2) 1).toNat * 2 ^ 32 + y
    let done (ws : List Word) : Host.Outcome State Fault Refusal :=
      .next ((s.advance 4).putWords (dstOperand dst) 0 ws)
    (s.canUseAll [(srcOperand src1).one, (srcOperand src2).one, (dstOperand dst).two] = true →
      exec (.emul src1 src2 dst) s =
        done [BitVec.ofNat 32 (y * x), BitVec.ofNat 32 (y * x / 2 ^ 32)]) ∧
    (s.canUseAll [(srcOperand src1).one, (srcOperand src2).two, (dstOperand dst).two] = true →
      x ≠ 0 →
      (n / x < 2 ^ 32 → exec (.ediv src1 src2 dst) s =
        done [BitVec.ofNat 32 (n % x), BitVec.ofNat 32 (n / x)]) ∧
      (2 ^ 32 ≤ n / x → ∃ v w d, exec (.ediv src1 src2 dst) s =
        .next { (s.advance 4).putWords (dstOperand dst) 0 [v, w] with draws := d })) ∧
    (s.canUseAll [(srcOperand src1).one, (srcOperand src2).two, (dstOperand dst).one] = true →
      exec (.eshro src1 src2 dst) s = done [BitVec.ofNat 32 (n / 2 ^ (x % 32))])

/-- The frame of the three-operand instructions on registers: outside the destination every register
and control is as before, all of memory reads as before; AC is as before for those without flags, but
for AC.of for the integer ones, but for the condition code for `addc`, `subc` and the compares that
step. -/
def Obligations.RegisterFrame : Prop :=
  ∀ (src1 src2 : Src) (dst : Dst) (s t : State), s.untraced = true →
    s.canUseAll [(srcOperand src1).one, (srcOperand src2).one, (dstOperand dst).one] = true →
    let kept := s.KeepsOutside t (dstOperand dst) 1 ∧ s.KeepsMemory t
    (∀ f ∈ [Instr.and, Instr.andnot, Instr.notand, Instr.xor, Instr.or, Instr.nor, Instr.xnor,
        Instr.ornot, Instr.notor, Instr.nand, Instr.setbit, Instr.clrbit, Instr.notbit,
        Instr.alterbit, Instr.addo, Instr.subo, Instr.mulo, Instr.shlo, Instr.shro, Instr.shri,
        Instr.shrdi, Instr.rotate],
      exec (f src1 src2 dst) s = .next t → kept ∧ t.ac = s.ac) ∧
    (∀ f ∈ [Instr.divo, Instr.remo, Instr.modi], s.value (srcOperand src1) 0 ≠ 0 →
      exec (f src1 src2 dst) s = .next t → kept ∧ t.ac = s.ac) ∧
    (∀ f ∈ [Instr.addi, Instr.subi, Instr.muli, Instr.shli], s.om = true →
      exec (f src1 src2 dst) s = .next t → kept ∧ s.KeepsAcButOf t) ∧
    (∀ f ∈ [Instr.divi, Instr.remi], s.om = true → s.value (srcOperand src1) 0 ≠ 0 →
      exec (f src1 src2 dst) s = .next t → kept ∧ s.KeepsAcButOf t) ∧
    (∀ f ∈ [Instr.addc, Instr.subc, Instr.cmpinco, Instr.cmpinci, Instr.cmpdeco, Instr.cmpdeci],
      exec (f src1 src2 dst) s = .next t → kept ∧ s.KeepsAcButCc t)

/-- The frame of the loads (no other agent coming between their requests), moves, wide and field
instructions, tests, compares and branches: outside the destination every register and control is as
before, all of memory reads as before; AC is as before but for the condition code where the instruction
writes it. -/
def Obligations.OtherFrames : Prop :=
  ∀ (src1 src2 : Src) (dst : Dst) (n : RegNum) (efa : Efa) (a : CSrc1) (b : CSrc2)
    (disp : BitVec 22) (d : BitVec 11) (p : Bool) (s t : State), s.untraced = true →
    let x := srcOperand src1
    let y := srcOperand src2
    let o := dstOperand dst
    let kept (o : Operand) (width : Nat) : Prop := s.KeepsOutside t o width ∧ s.KeepsMemory t
    (∀ q ∈ [(Instr.ld efa n, 4, 1, 1), (Instr.ldob efa n, 1, 1, 1), (Instr.ldib efa n, 1, 1, 1),
        (Instr.ldos efa n, 2, 1, 1), (Instr.ldis efa n, 2, 1, 1), (Instr.lda efa n, 1, 1, 1),
        (Instr.ldl efa n, 8, 2, 2), (Instr.ldt efa n, 12, 4, 3), (Instr.ldq efa n, 16, 4, 4)],
      n.toNat % q.2.2.1 = 0 → s.canAccess (s.address s.ip efa) q.2.1 = true →
      s.whole (s.address s.ip efa) q.2.1 = true →
      exec q.1 s = .next t → kept (.reg n) q.2.2.2 ∧ t.ac = s.ac) ∧
    (∀ q ∈ [(Instr.mov src1 dst, [x.one, o.one], 1), (Instr.not src1 dst, [x.one, o.one], 1),
        (Instr.movl src1 dst, [x.two, o.two], 2), (Instr.movt src1 dst, [x.three, o.three], 3),
        (Instr.movq src1 dst, [x.four, o.four], 4),
        (Instr.emul src1 src2 dst, [x.one, y.one, o.two], 2),
        (Instr.eshro src1 src2 dst, [x.one, y.two, o.one], 1)],
      s.canUseAll q.2.1 = true → exec q.1 s = .next t → kept o q.2.2 ∧ t.ac = s.ac) ∧
    (s.canUseAll [x.one, y.two, o.two] = true → s.value x 0 ≠ 0 →
      exec (.ediv src1 src2 dst) s = .next t → kept o 2 ∧ t.ac = s.ac) ∧
    (∀ i ∈ [Instr.scanbit src1 dst, Instr.spanbit src1 dst], s.canUseAll [x.one, o.one] = true →
      exec i s = .next t → kept o 1 ∧ s.KeepsAcButCc t) ∧
    (∀ i ∈ [Instr.extract src1 src2 (.reg n), Instr.modify src1 src2 (.reg n)],
      s.canUseAll [x.one, y.one] = true → exec i s = .next t → kept (.reg n) 1 ∧ t.ac = s.ac) ∧
    (∀ f ∈ [Instr.testno, Instr.testg, Instr.teste, Instr.testge, Instr.testl, Instr.testne,
        Instr.testle, Instr.testo],
      exec (f (.reg n)) s = .next t → kept (.reg n) 1 ∧ t.ac = s.ac) ∧
    (∀ f ∈ [Instr.cmpo, Instr.cmpi, Instr.concmpo, Instr.concmpi, Instr.chkbit, Instr.scanbyte],
      s.canUseAll [x.one, y.one] = true → exec (f src1 src2) s = .next t →
      kept (.lit 0) 0 ∧ s.KeepsAcButCc t) ∧
    (∀ f ∈ [Instr.bbc, Instr.bbs, Instr.cmpobg, Instr.cmpobe, Instr.cmpobge, Instr.cmpobl,
        Instr.cmpobne, Instr.cmpoble, Instr.cmpibno, Instr.cmpibg, Instr.cmpibe, Instr.cmpibge,
        Instr.cmpibl, Instr.cmpibne, Instr.cmpible, Instr.cmpibo],
      s.canUseAll [(csrc1Operand a).one, (csrc2Operand b).one] = true →
      exec (f a b d p) s = .next t → kept (.lit 0) 0 ∧ s.KeepsAcButCc t) ∧
    (∀ f ∈ [Instr.b, Instr.bno, Instr.bg, Instr.be, Instr.bge, Instr.bl, Instr.bne, Instr.ble,
        Instr.bo],
      exec (f disp p) s = .next t → kept (.lit 0) 0 ∧ t.ac = s.ac) ∧
    (exec (.bx efa) s = .next t → kept (.lit 0) 0 ∧ t.ac = s.ac) ∧
    (exec (.bal disp p) s = .next t → kept (.reg 30) 1 ∧ t.ac = s.ac) ∧
    (exec (.balx efa n) s = .next t → kept (.reg n) 1 ∧ t.ac = s.ac)

/-! Comparisons, tests and branches. -/

/-- The compares leave 100b, 010b or 001b for less, equal and greater, as ordinals or integers; those
that step give src2 plus or minus 1 modulo 2^32, without overflow. -/
def Obligations.CompareResults : Prop :=
  ∀ (src1 src2 : Src) (dst : Dst) (s : State), s.untraced = true →
    let x := s.value (srcOperand src1) 0
    let y := s.value (srcOperand src2) 0
    let co : BitVec 3 := if x.toNat < y.toNat then 4 else if x.toNat = y.toNat then 2 else 1
    let ci : BitVec 3 := if x.toInt < y.toInt then 4 else if x.toInt = y.toInt then 2 else 1
    (s.canUseAll [(srcOperand src1).one, (srcOperand src2).one] = true →
      let ends (c : BitVec 3) : Host.Outcome State Fault Refusal := .next ((s.advance 4).setCc c)
      exec (.cmpo src1 src2) s = ends co ∧
      exec (.cmpi src1 src2) s = ends ci ∧
      exec (.concmpo src1 src2) s =
        ends (if s.cc.getLsbD 2 then s.cc else if x.toNat ≤ y.toNat then 2 else 1) ∧
      exec (.concmpi src1 src2) s =
        ends (if s.cc.getLsbD 2 then s.cc else if x.toInt ≤ y.toInt then 2 else 1)) ∧
    (s.canUseAll [(srcOperand src1).one, (srcOperand src2).one, (dstOperand dst).one] = true →
      let ends (c : BitVec 3) (v : Word) : Host.Outcome State Fault Refusal :=
        .next (((s.advance 4).putValue (dstOperand dst) 0 v).setCc c)
      exec (.cmpinco src1 src2 dst) s = ends co (y + 1) ∧
      exec (.cmpinci src1 src2 dst) s = ends ci (y + 1) ∧
      exec (.cmpdeco src1 src2 dst) s = ends co (y - 1) ∧
      exec (.cmpdeci src1 src2 dst) s = ends ci (y - 1))

/-- `test<cc>` writes 1 or 0; `fault<cc>` raises the constraint-range fault after the instruction where
the condition holds, else the next instruction follows. The `no` forms test for 000b. -/
def Obligations.ConditionResults : Prop :=
  ∀ (n : RegNum) (s : State), s.untraced = true →
    let ends (b : Bool) : Host.Outcome State Fault Refusal :=
      .next ((s.advance 4).setReg n (if b then 1 else 0))
    let raises (b : Bool) : Host.Outcome State Fault Refusal :=
      if b then takeFault s (s.advance 4) .constraintRange (s.ip + 4) else .next (s.advance 4)
    exec (.testno (.reg n)) s = ends (s.cc == 0) ∧
    exec .faultno s = raises (s.cc == 0) ∧
    exec (.testg (.reg n)) s = ends (s.cc &&& 1 != 0) ∧
    exec .faultg s = raises (s.cc &&& 1 != 0) ∧
    exec (.teste (.reg n)) s = ends (s.cc &&& 2 != 0) ∧
    exec .faulte s = raises (s.cc &&& 2 != 0) ∧
    exec (.testge (.reg n)) s = ends (s.cc &&& 3 != 0) ∧
    exec .faultge s = raises (s.cc &&& 3 != 0) ∧
    exec (.testl (.reg n)) s = ends (s.cc &&& 4 != 0) ∧
    exec .faultl s = raises (s.cc &&& 4 != 0) ∧
    exec (.testne (.reg n)) s = ends (s.cc &&& 5 != 0) ∧
    exec .faultne s = raises (s.cc &&& 5 != 0) ∧
    exec (.testle (.reg n)) s = ends (s.cc &&& 6 != 0) ∧
    exec .faultle s = raises (s.cc &&& 6 != 0) ∧
    exec (.testo (.reg n)) s = ends (s.cc != 0) ∧
    exec .faulto s = raises (s.cc != 0)

/-- `b`, `bx`, the conditional branches, `bal` and `balx`: the target is the address of the instruction
plus the sign-extended displacement, for `bx` and `balx` the effective address without its low two bits
(the spec's decision D29), computed before the link is written; not taken, the next instruction
follows. -/
def Obligations.BranchResults : Prop :=
  ∀ (disp : BitVec 22) (p : Bool) (efa : Efa) (dst : RegNum) (s : State), s.untraced = true →
    let target : Word := s.ip + BitVec.ofInt 32 (4 * disp.toInt)
    let far : Word := s.address s.ip efa &&& 0xFFFFFFFC
    let ends (taken : Bool) : Host.Outcome State Fault Refusal :=
      .next (if taken then s.goTo target else s.advance 4)
    exec (.b disp p) s = ends true ∧
    exec (.bx efa) s = .next (s.goTo far) ∧
    exec (.bno disp p) s = ends (s.cc == 0) ∧
    exec (.bg disp p) s = ends (s.cc &&& 1 != 0) ∧
    exec (.be disp p) s = ends (s.cc &&& 2 != 0) ∧
    exec (.bge disp p) s = ends (s.cc &&& 3 != 0) ∧
    exec (.bl disp p) s = ends (s.cc &&& 4 != 0) ∧
    exec (.bne disp p) s = ends (s.cc &&& 5 != 0) ∧
    exec (.ble disp p) s = ends (s.cc &&& 6 != 0) ∧
    exec (.bo disp p) s = ends (s.cc != 0) ∧
    exec (.bal disp p) s = .next ((s.setReg 30 (s.ip + 4)).goTo target) ∧
    exec (.balx efa dst) s = .next ((s.setReg dst (s.ip + efa.len)).goTo far)

/-- Compare and branch: the condition code is written whether or not the branch is taken; `cmpibno`
never branches and `cmpibo` always does. `bbc` branches on a clear bit and `bbs` on a set one, and
010b says that the branch is taken. -/
def Obligations.CompareBranchResults : Prop :=
  ∀ (src1 : CSrc1) (src2 : CSrc2) (disp : BitVec 11) (p : Bool) (s : State), s.untraced = true →
    s.canUseAll [(csrc1Operand src1).one, (csrc2Operand src2).one] = true →
    let x := s.value (csrc1Operand src1) 0
    let y := s.value (csrc2Operand src2) 0
    let co : BitVec 3 := if x.toNat < y.toNat then 4 else if x.toNat = y.toNat then 2 else 1
    let ci : BitVec 3 := if x.toInt < y.toInt then 4 else if x.toInt = y.toInt then 2 else 1
    let bit := y.getLsbD (x.toNat % 32)
    let target : Word := s.ip + BitVec.ofInt 32 (4 * disp.toInt)
    let ends (c : BitVec 3) (taken : Prop) [Decidable taken] : Host.Outcome State Fault Refusal :=
      .next (if taken then (s.setCc c).goTo target else (s.setCc c).advance 4)
    exec (.cmpobg src1 src2 disp p) s = ends co (x.toNat > y.toNat) ∧
    exec (.cmpobe src1 src2 disp p) s = ends co (x = y) ∧
    exec (.cmpobge src1 src2 disp p) s = ends co (x.toNat ≥ y.toNat) ∧
    exec (.cmpobl src1 src2 disp p) s = ends co (x.toNat < y.toNat) ∧
    exec (.cmpobne src1 src2 disp p) s = ends co (x ≠ y) ∧
    exec (.cmpoble src1 src2 disp p) s = ends co (x.toNat ≤ y.toNat) ∧
    exec (.cmpibno src1 src2 disp p) s = ends ci False ∧
    exec (.cmpibg src1 src2 disp p) s = ends ci (x.toInt > y.toInt) ∧
    exec (.cmpibe src1 src2 disp p) s = ends ci (x = y) ∧
    exec (.cmpibge src1 src2 disp p) s = ends ci (x.toInt ≥ y.toInt) ∧
    exec (.cmpibl src1 src2 disp p) s = ends ci (x.toInt < y.toInt) ∧
    exec (.cmpibne src1 src2 disp p) s = ends ci (x ≠ y) ∧
    exec (.cmpible src1 src2 disp p) s = ends ci (x.toInt ≤ y.toInt) ∧
    exec (.cmpibo src1 src2 disp p) s = ends ci True ∧
    exec (.bbc src1 src2 disp p) s = ends (if bit = false then 2 else 0) (bit = false) ∧
    exec (.bbs src1 src2 disp p) s = ends (if bit = true then 2 else 0) (bit = true)

/-! Calls and returns. -/

/-- `call` and `callx`: the new frame starts at SP rounded up to 16, the return address goes to r2 of
the caller's set, the target comes from the caller's registers, its low two bits dropped for `callx`
(the spec's decision D29). A call that cannot spill raises TYPE.MISMATCH in place of the call (its
decision D32). Sets six to fifteen of the register cache lie in internal data RAM (log 16). -/
def Obligations.CallResults : Prop :=
  ∀ (disp : BitVec 22) (p : Bool) (efa : Efa) (s : State), s.untraced = true →
    let frame := (s.sp + 15) &&& 0xFFFFFFF0
    let enters (link target : Word) (t : State) : Prop :=
      s.FrameEntered t frame link (s.fp &&& 0xFFFFFFF0) target ∧ s.CallKeeps t ∧ t.pctl = s.pctl
    (s.canSpill = true →
      completesWith (exec (.call disp p) s)
        (enters (s.ip + 4) (s.ip + BitVec.ofInt 32 (4 * disp.toInt))) ∧
      completesWith (exec (.callx efa) s)
        (enters (s.ip + efa.len) (s.address s.ip efa &&& 0xFFFFFFFC))) ∧
    (s.canSpill = false →
      exec (.call disp p) s = takeFault s s .typeMismatch (s.ip + 4) ∧
      exec (.callx efa) s = takeFault s s .typeMismatch (s.ip + efa.len))

/-- A call with a full register cache, of any size that the configuration allows, writes the oldest set
to the frame that it belongs to and keeps the others; sets six to fifteen are kept in internal data RAM
by their position, and a spill to a frame there does not change them (log 16, DESIGN CHOICE). -/
def Obligations.SpilledSet : Prop :=
  ∀ (disp : BitVec 22) (p : Bool) (s : State) (old : SavedSet) (rest : List SavedSet),
    s.untraced = true → s.mem.wf = true → s.turns = [] → s.cachedSets = old :: rest →
    s.rcache.length = s.config.regcacheSets → s.config.regcacheSets ≤ 15 → s.canSpill = true →
    completesWith (exec (.call disp p) s) fun t =>
      t.cachedSets = rest ++ [⟨s.fp, s.locals.set 2 (s.ip + 4)⟩] ∧
      (s.config.regcacheSets ≤ 5 → t.rcache = t.cachedSets) ∧
      (s.config.regcacheSets ≤ 5 ∨ (0x400 ≤ old.frame.toNat ∧ old.frame.toNat + 64 ≤ 2 ^ 32) →
        ∀ k : Fin 16, t.readWord (old.frame + BitVec.ofNat 32 (4 * k.val)) = old.words.get k) ∧
      (∀ x : Word, 64 ≤ (x - old.frame).toNat →
        x.toNat + 64 * (s.config.regcacheSets - 5) < 0x400 ∨ 0x400 ≤ x.toNat →
        t.readByte x = s.readByte x)

/-- `calls`: a number above 259 raises PROTECTION.LENGTH; a local entry, or any entry in supervisor
mode, is a local call; a supervisor entry from user mode switches the mode and the stack, keeps PC.te
in the return type and loads PC.te from the trace-control bit. A local call that cannot spill raises
TYPE.MISMATCH in place of the call (the spec's decision D32). That bit 1 alone of the entry type decides
is its decision D31. `s.turn` is the state when the supervisor stack pointer is read: that other agents
may come between the two reads is log 40 (DESIGN CHOICE). -/
def Obligations.SystemCallResults : Prop :=
  ∀ (src : Src) (s : State), s.untraced = true → s.canUseAll [(srcOperand src).one] = true →
    let n := s.value (srcOperand src) 0
    let entry := s.readWord (s.tables.sptBase + 48 + 4 * n)
    let ssp := s.turn.readWord (s.tables.sptBase + 12)
    let enters (stack back pc : Word) (t : State) : Prop :=
      s.FrameEntered t ((stack + 15) &&& 0xFFFFFFF0) (s.ip + 4) ((s.fp &&& 0xFFFFFFF0) ||| back)
        (entry &&& 0xFFFFFFFC) ∧ s.CallKeeps t ∧ t.pctl = pc
    (259 < n.toNat → exec (.calls src) s = takeFault s s .length (s.ip + 4)) ∧
    (n.toNat ≤ 259 → entry.getLsbD 1 = false ∨ s.em = true → s.canSpill = true →
      completesWith (exec (.calls src) s) (enters s.sp 0 s.pctl)) ∧
    (n.toNat ≤ 259 → entry.getLsbD 1 = false → s.canSpill = false →
      exec (.calls src) s = takeFault s s .typeMismatch (s.ip + 4)) ∧
    (n.toNat ≤ 259 → entry.getLsbD 1 = true → s.em = false →
      completesWith (exec (.calls src) s)
        (enters (ssp &&& 0xFFFFFFFC) (if s.te then 3 else 2)
          ((s.pctl &&& 0xFFFFFFFC) ||| 2 ||| (ssp &&& 1))))

/-- `ret` by the return type in r0, no other agent coming between its requests: the frame, the local
registers from the cache or from memory, the return address; AC and, in supervisor mode, PC from the
record for a fault or interrupt return; user mode and the kept PC.te for a supervisor return; a reserved
type raises OPERATION.UNIMPLEMENTED. That sets six to fifteen are read from internal data RAM is log 16,
that the newest cached set is taken whatever frame it belongs to the spec's decision D30, that the low
bits of r2 are dropped its decision D29. -/
def Obligations.ReturnResults : Prop :=
  ∀ s : State, s.untraced = true → s.turns = [] →
    let frame := s.pfp &&& 0xFFFFFFF0
    let kind := (s.pfp &&& 7).toNat
    (kind = 4 ∨ kind = 5 ∨ kind = 6 →
      exec .ret s = takeFault s s .unimplemented (s.ip + 4)) ∧
    (kind ≤ 3 ∨ kind = 7 → completesWith (exec .ret s) fun t =>
      t.fp = frame ∧ t.ip = t.getReg 2 &&& 0xFFFFFFFC ∧ t.rcache = s.rcache.dropLast ∧
      (s.rcache = [] → ∀ k : Fin 16,
        t.locals.get k = s.readWord (frame + BitVec.ofNat 32 (4 * k.val))) ∧
      (∀ c, s.rcache.getLast? = some c → s.rcache.length ≤ 5 → t.locals = c.words) ∧
      (5 < s.rcache.length → ∀ k : Fin 16, t.locals.get k =
        s.readWord (0x400 - BitVec.ofNat 32 (64 * (s.rcache.length - 5)) +
          BitVec.ofNat 32 (4 * k.val))) ∧
      (∀ n : RegNum, 16 ≤ n.toNat → n ≠ 31 → t.getReg n = s.getReg n) ∧
      s.KeepsMemory t ∧ s.SameControl t ∧ t.tc = s.tc ∧
      t.ac = (if kind = 1 ∨ kind = 7 then s.readWord (s.fp - 12) else s.ac) ∧
      t.pctl = (if (kind = 1 ∨ kind = 7) ∧ s.em = true then s.readWord (s.fp - 16)
        else if kind = 2 ∨ kind = 3 then (s.pctl &&& 0xFFFFFFFC) ||| (s.pfp &&& 1)
        else s.pctl))

/-- `flushreg`, no other agent coming between its requests: every cached set, those in internal data RAM
too (log 16), is in memory at the frame that it belongs to, if the frames do not overlap; the cache is
empty; nothing else changes. In user mode with a frame in protected internal data RAM it raises
TYPE.MISMATCH and writes nothing (the spec's decision D32). That a frame in the places of the sets in
data RAM changes no set that is written after it is log 16 too (DESIGN CHOICE). -/
def Obligations.FlushResults : Prop :=
  ∀ s : State,
    (s.untraced = true → s.mem.wf = true → s.turns = [] →
      (s.em = true ∨ ∀ c ∈ s.cachedSets, s.protectedRange c.frame 64 = false) →
      completesWith (exec .flushreg s) fun t =>
        t.rcache = [] ∧ t.ip = s.ip + 4 ∧ t.locals = s.locals ∧ t.globals = s.globals ∧
        t.ac = s.ac ∧ t.pctl = s.pctl ∧ t.tc = s.tc ∧ s.SameControl t ∧
        (s.cachedSets.Pairwise (fun c d => 64 ≤ (d.frame - c.frame).toNat ∧
            64 ≤ (c.frame - d.frame).toNat) →
          ∀ c ∈ s.cachedSets, ∀ k : Fin 16,
            t.readWord (c.frame + BitVec.ofNat 32 (4 * k.val)) = c.words.get k) ∧
        (∀ x : Word, (∀ c ∈ s.cachedSets, 64 ≤ (x - c.frame).toNat) →
          t.readByte x = s.readByte x)) ∧
    (s.em = false → (∃ c ∈ s.cachedSets, s.protectedRange c.frame 64 = true) →
      exec .flushreg s = takeFault s s .typeMismatch (s.ip + 4))

/-- A call and the return from it: `call`, `callx` and a supervisor `calls` from user mode, then `ret`
at the first instruction of the callee, resume at the link address with every register but r2, the
register cache, AC, PC and all of memory as they were. -/
def Obligations.CallThenReturn : Prop :=
  ∀ (disp : BitVec 22) (p : Bool) (efa : Efa) (src : Src) (s t : State),
    s.untraced = true → s.turns = [] → s.rcache.length < 5 →
    s.rcache.length < s.config.regcacheSets → s.fp &&& 15 = 0 → s.ip &&& 3 = 0 →
    ∀ q ∈ [(Instr.call disp p, (4 : Word)), (Instr.callx efa, efa.len), (Instr.calls src, 4)],
      (q.1 = .calls src → s.canUseAll [(srcOperand src).one] = true ∧
        (s.value (srcOperand src) 0).toNat ≤ 259) →
      exec q.1 s = .next t →
      completesWith (exec .ret t) fun u =>
        u.ip = s.ip + q.2 ∧ u.locals = s.locals.set 2 (s.ip + q.2) ∧ u.globals = s.globals ∧
        u.rcache = s.rcache ∧ u.depth = s.depth ∧ u.ac = s.ac ∧ u.pctl = s.pctl ∧
        s.KeepsMemory u

/-! Faults and tracing by instructions. -/

/-- Trace events: with an event, its flags are set in TC; with PC.te = 1, as the instruction leaves it,
the trace fault is made pending and the address of the instruction is kept. `fmark` does so whatever the
modes are, `mark` in breakpoint mode; with PC.te = 0 they set nothing (the spec's choice C38). Calls set
the prereturn flag of the frame; a prereturn event with PC.te = 0 sets its flag before anything else of
the `ret`. A return that restores PC loses the pending flag of its own events. A breakpoint register
needs TC.br and sets TC.brf with its own flag (the spec's decision D50); a data breakpoint compares
every byte of an access (its decision D17). The positions of the BPCON fields are open (log 8); that
PC.te is judged as the call leaves it is its decision D43; TC.i0f is bit 26 by its note N3. -/
def Obligations.TraceEvents : Prop :=
  ∀ s : State, s.trace.tcDelay.left = 0 → s.trace.teDelay.left = 0 →
    s.ctrl.ipb1.getLsbD 0 = false →
    let flag (mode : Nat) (w : Word) : Word := if s.tc.getLsbD mode then w else 0
    let ifl := flag 1 0x20000
    let bfl := flag 2 0x40000
    let cfl := flag 3 0x80000
    let rtf := flag 4 0x100000
    let sfl := flag 6 0x400000
    let brf : Word := if s.te then 0x800000 else 0
    let ends (u : State) (flags : Word) : Host.Outcome State Fault Refusal :=
      .next (if flags = 0 then u
        else
          { u with
            tc := s.tc ||| flags
            pctl := if s.te then s.pctl ||| 0x400 else s.pctl
            trace := { s.trace with traceIp := if s.te then s.ip else s.trace.traceIp } })
    let marks (te : Bool) (pc tc flags : Word) (t : State) : Prop :=
      t.tc = tc ||| flags ∧ t.pctl = (if flags ≠ 0 ∧ te = true then pc ||| 0x400 else pc) ∧
      t.trace.traceIp = if flags ≠ 0 ∧ te = true then s.ip else s.trace.traceIp
    (s.ctrl.ipb0.getLsbD 0 = false → s.ctrl.bpcon = 0 →
      exec .syncf s = ends (s.advance 4) ifl ∧
      exec .fmark s = ends (s.advance 4) (ifl ||| brf) ∧
      exec .mark s = ends (s.advance 4) (ifl ||| flag 7 brf) ∧
      (∀ (disp : BitVec 22) (p : Bool), let target : Word := s.ip + BitVec.ofInt 32 (4 * disp.toInt)
        exec (.b disp p) s = ends (s.goTo target) (ifl ||| bfl) ∧
        exec (.bal disp p) s =
          ends ((if s.tc.getLsbD 3 then s.setReg 0 (s.pfp ||| 8) else s).setReg 30 (s.ip + 4) |>.goTo
            target) (ifl ||| cfl) ∧
        (s.canSpill = true → completesWith (exec (.call disp p) s) fun t =>
          marks s.te s.pctl s.tc (ifl ||| cfl) t ∧ t.pfp.getLsbD 3 = s.tc.getLsbD 3)) ∧
      (∀ efa : Efa, s.canSpill = true → completesWith (exec (.callx efa) s) fun t =>
        marks s.te s.pctl s.tc (ifl ||| cfl) t ∧ t.pfp.getLsbD 3 = s.tc.getLsbD 3) ∧
      (∀ src : Src, s.canUseAll [(srcOperand src).one] = true →
        (s.value (srcOperand src) 0).toNat ≤ 259 →
        let entry := s.readWord (s.tables.sptBase + 48 + 4 * s.value (srcOperand src) 0)
        let ssp := s.turn.readWord (s.tables.sptBase + 12)
        let calls (te : Bool) (pc flags : Word) : Prop :=
          completesWith (exec (.calls src) s) fun t =>
            marks te pc s.tc flags t ∧ t.pfp.getLsbD 3 = s.tc.getLsbD 3
        (entry.getLsbD 1 = false → s.canSpill = true → calls s.te s.pctl (ifl ||| cfl)) ∧
        (entry.getLsbD 1 = true → s.em = true → calls s.te s.pctl (ifl ||| cfl ||| sfl)) ∧
        (entry.getLsbD 1 = true → s.em = false →
          calls (ssp.getLsbD 0) ((s.pctl &&& 0xFFFFFFFC) ||| 2 ||| (ssp &&& 1))
            (ifl ||| cfl ||| sfl))) ∧
      (let kind := (s.pfp &&& 7).toNat
       let due := s.pfp.getLsbD 3 && s.tc.getLsbD 5
       let tc : Word := if due then s.tc ||| 0x200000 else s.tc
       let returns (te : Bool) (pc flags : Word) : Prop :=
         completesWith (exec .ret s) (marks te pc tc flags)
       due = false ∨ s.te = false →
       (kind = 0 → returns s.te s.pctl (ifl ||| rtf)) ∧
       (kind = 2 ∨ kind = 3 →
         returns (s.pfp.getLsbD 0) ((s.pctl &&& 0xFFFFFFFC) ||| (s.pfp &&& 1))
           (ifl ||| rtf ||| sfl)) ∧
       (kind = 1 ∨ kind = 7 → s.em = false → returns s.te s.pctl (ifl ||| rtf)) ∧
       (kind = 1 ∨ kind = 7 → s.em = true → completesWith (exec .ret s) fun t =>
         t.tc = tc ||| ifl ||| rtf ∧ t.pctl = s.turn.readWord (s.fp - 16)) ∧
       (kind = 4 ∨ kind = 5 ∨ kind = 6 →
         exec .ret s = takeFault { s with tc := tc } { s with tc := tc } .unimplemented
           (s.ip + 4)))) ∧
    (s.ctrl.bpcon = 0 → s.ip &&& 3 = 0 → s.ctrl.ipb0 = s.ip ||| 1 → s.tc.getLsbD 7 = true →
      exec .syncf s = ends (s.advance 4) (ifl ||| 0x4800000)) ∧
    (s.ctrl.ipb0.getLsbD 0 = false → ∀ (efa : Efa) (n : RegNum),
      let a := s.address s.ip efa
      let u := s.advance efa.len
      let hit (e : Fin 32) (m : Fin 31) (dab : Word) (selects : BitVec 2 → Bool) (x : Word)
          (size : Nat) : Bool :=
        s.tc.getLsbD 7 && s.ctrl.bpcon.getLsbD e.val && selects (s.ctrl.bpcon.extractLsb' m.val 2) &&
          decide ((dab - x).toNat < size)
      let hits (selects : BitVec 2 → Bool) (x : Word) (size : Nat) : Word :=
        (if hit Config.bpconEnable0 Config.bpconMode0 s.ctrl.dab0 selects x size then 0x1800000
          else 0) |||
        (if hit Config.bpconEnable1 Config.bpconMode1 s.ctrl.dab1 selects x size then 0x2800000
          else 0)
      let fetched : Word := hits (fun m => m == 2 || m == 3) s.ip efa.len.toNat
      (s.canAccess a 4 = true → s.whole a 4 = true →
        exec (.ld efa n) s = ends (u.setReg n (s.readWord a))
          (ifl ||| fetched ||| hits (fun m => m != 0) a 4)) ∧
      (s.canStore a 4 = true → s.whole a 4 = true →
        exec (.st n efa) s = ends (u.writeWord a (s.getReg n))
          (ifl ||| fetched ||| hits (fun _ => true) a 4)) ∧
      exec (.lda efa n) s = ends (u.setReg n a) (ifl ||| fetched))

/-- A pending trace fault: with PC.te = 0 the event flags are cleared and the next instruction runs;
with PC.te = 1 the trace fault is taken, its subtype the image of the event flags, which are cleared,
with PC.tfp clear in the saved PC and tracing off in the handler (the spec's decision D44). A prereturn
event with PC.te = 1 is taken in place of the `ret`, which is the return address, with the prereturn flag
of the frame cleared (its decision D49); its fault IP is a free value (log 30). Other agents have no turn
in either entry (R585 steps 4 and 6). -/
def Obligations.PendingTraceFault : Prop :=
  ∀ s : State, s.mem.wf = true → s.tc.getLsbD 3 = false → (s.faultTarget (.trace 0)).isSome →
    let taken (tc : Word) (locals : Vector Word 16) (t : State) : Prop :=
      t.readWord (t.fp - 8) = 0x10000 ||| ((tc >>> 16) &&& 0xFE) ∧
      t.readWord (t.fp - 12) = s.ac ∧
      t.readWord (t.fp - 16) = s.pctl &&& 0xFFFFFBFF ∧
      t.te = false ∧ t.tfp = false ∧ t.tc = tc &&& 0xFF01FFFF ∧
      t.rcache.getLast? = some ⟨s.fp, locals.set 2 s.ip⟩
    (s.tfp = true → s.te = false →
      s.afterInterrupts = { s with tc := s.tc &&& 0xF001FFFF }.runNext) ∧
    (s.tfp = true → s.te = true → completesWith s.afterInterrupts fun t =>
      taken s.tc s.locals t ∧ t.readWord (t.fp - 4) = s.trace.traceIp) ∧
    (s.pfp.getLsbD 3 = true → s.tc.getLsbD 5 = true → s.te = true → s.trace.tcDelay.left = 0 →
      s.trace.teDelay.left = 0 → completesWith (exec .ret s)
        (taken (s.tc ||| 0x200000) (s.locals.set 0 (s.pfp &&& 0xFFFFFFF7))) ∧
      ∀ ts : List (List Host.Cell), exec .ret { s with turns := ts } = exec .ret s) ∧
    (s.tfp = true → s.te = true →
      ∀ ts : List (List Host.Cell), { s with turns := ts }.afterInterrupts = s.afterInterrupts)

/-! Atomic instructions and the controls. -/

/-- `atadd` and `atmod`: the old word goes to the destination, the new one to the word-aligned address;
only that word and the destination change; in user mode protected internal data RAM raises
TYPE.MISMATCH and nothing is written. Between the read and the write no other agent writes the 16-byte
block of the word, as long as no DMA channel is started (that other bus masters honour LOCK: log 40). -/
def Obligations.AtomicResults : Prop :=
  ∀ (src1 src2 : Src) (dst : Dst) (n : RegNum) (s : State),
    let a := s.value (addressOperand src1) 0 &&& 0xFFFFFFFC
    let block := s.value (addressOperand src1) 0 &&& 0xFFFFFFF0
    let y := s.value (srcOperand src2) 0
    let old := s.readWord a
    let mixed := (s.getReg n &&& y) ||| (old &&& ~~~y)
    let u := (s.advance 4).lockedTurn block 16
    (s.turns = [] → u = s.advance 4) ∧
    (s.mem.wf = true → (∀ c : Fin 4, s.dma.started.get c = false) →
      ∀ x : Word, x &&& 0xFFFFFFF0 = block → u.readByte x = s.readByte x) ∧
    (s.canUseAll [(addressOperand src1).one, (srcOperand src2).one, (dstOperand dst).one] = true →
      (s.untraced = true → s.canStore a 4 = true → exec (.atadd src1 src2 dst) s =
        .next ((u.writeWord a (old + y)).putValue (dstOperand dst) 0 old)) ∧
      (s.canStore a 4 = false →
        exec (.atadd src1 src2 dst) s = takeFault s s .typeMismatch (s.ip + 4))) ∧
    (s.canUseAll [(addressOperand src1).one, (srcOperand src2).one] = true →
      (s.untraced = true → s.canStore a 4 = true → exec (.atmod src1 src2 (.reg n)) s =
        .next ((u.writeWord a mixed).setReg n old)) ∧
      (s.canStore a 4 = false →
        exec (.atmod src1 src2 (.reg n)) s = takeFault s s .typeMismatch (s.ip + 4)))

/-- `modac`, `modtc` and `modpc` give the old value to the destination and change the bits under the
mask. `modtc` opens a window of four instructions where mode bits change, and `modpc` where PC.te does
(log 21); an instruction-trace mode that `modtc` sets signals an event for `modtc` itself. `modpc` with
a mask in user mode raises TYPE.MISMATCH; a change of a reserved bit of PC stops (log 23); a lower
priority makes the posted interrupts be looked at. That reserved bits of AC and TC are stored is the
spec's decision D33, the stop at a reserved bit of PC its decision D34, the refresh of the software
priority its decision D40 and choice C41. -/
def Obligations.ControlsModified : Prop :=
  ∀ (src1 src2 : Src) (dst : Dst) (n : RegNum) (s : State), s.untraced = true →
    let x := s.value (srcOperand src1) 0
    let y := s.value (srcOperand src2) 0
    let mixed (m v w : Word) : Word := (v &&& m) ||| (w &&& ~~~m)
    let u := (s.advance 4).putValue (dstOperand dst) 0
    (s.canUseAll [(srcOperand src1).one, (srcOperand src2).one, (dstOperand dst).one] = true →
      exec (.modac src1 src2 dst) s = .next { u s.ac with ac := mixed x y s.ac } ∧
      (mixed x y s.tc &&& 0xFE = 0 →
        exec (.modtc src1 src2 dst) s = .next { u s.tc with tc := mixed x y s.tc }) ∧
      (mixed x y s.tc &&& 0xFE ≠ 0 → (mixed x y s.tc).getLsbD 1 = false →
        exec (.modtc src1 src2 dst) s =
          .next { u s.tc with
            tc := mixed x y s.tc
            trace := { s.trace with tcDelay := { left := 4, old := s.tc } } }) ∧
      ((mixed x y s.tc).getLsbD 1 = true →
        exec (.modtc src1 src2 dst) s =
          .next { u s.tc with
            tc := mixed x y s.tc ||| 0x20000
            pctl := if s.te then s.pctl ||| 0x400 else s.pctl
            trace :=
              { s.trace with
                traceIp := if s.te then s.ip else s.trace.traceIp
                tcDelay := { left := 4, old := s.tc } } })) ∧
    (s.canUseAll [(srcOperand src1).one, (srcOperand src2).one] = true →
      let w := mixed y (s.getReg n) s.pctl
      let v : State :=
        { (s.advance 4).setReg n s.pctl with
          pctl := w
          trace :=
            if w.getLsbD 0 = s.te then s.trace
            else { s.trace with teDelay := { left := 4, old := s.te } } }
      (y = 0 → exec (.modpc src1 src2 (.reg n)) s = .next ((s.advance 4).setReg n s.pctl)) ∧
      (y ≠ 0 → s.em = false →
        exec (.modpc src1 src2 (.reg n)) s = takeFault s s .typeMismatch (s.ip + 4)) ∧
      (y ≠ 0 → s.em = true → (w ^^^ s.pctl) &&& 0xFFE0DBFC ≠ 0 →
        exec (.modpc src1 src2 (.reg n)) s = .fault .reservedProcessControls) ∧
      (y ≠ 0 → s.em = true → (w ^^^ s.pctl) &&& 0xFFE0DBFC = 0 →
        exec (.modpc src1 src2 (.reg n)) s =
          .next (if w.extractLsb' 16 5 < s.priority then v.checkPending else v)))

/-- `sysctl` in supervisor mode, messages 00H to 02H and the undefined ones: an interrupt is posted and
the software-priority register refreshed (vectors 0 to 7 only refresh it: the spec's decision D35),
other agents having a turn in between (DESIGN CHOICE: log 40); the instruction cache becomes consistent with memory (its
decision D36); its mode and locked contents are set, a mode that locks nothing giving up what was locked
(the model's choice: log 15), and a load-and-lock of an address that is not a multiple of 16 or lies in
data RAM stops (U17, log 23); reserved modes and messages raise OPERATION.INVALID_OPERAND (D37). -/
def Obligations.SystemControlRequests : Prop :=
  ∀ (src1 src2 : Src) (src3 : Src3) (s : State), s.untraced = true → s.em = true →
    s.canUseAll [(srcOperand src1).one, (srcOperand src2).one, (src3Operand src3).one] = true →
    let msg := ((s.value (srcOperand src1) 0).extractLsb' 8 8).toNat
    let f := (s.value (srcOperand src1) 0).extractLsb' 0 8
    let a := s.value (srcOperand src2) 0
    let u := s.advance 4
    let run := exec (.sysctl src1 src2 src3) s
    let cache (m : ICacheMode) (l : Option LockedBlock) : State :=
      { u with icache := { s.icache with mode := m, locked := l, fetchingLocked := false } }
    let loads (m : ICacheMode) (k : Nat) : Prop :=
      (a &&& 15 = 0 → 0x400 ≤ a.toNat → ∃ (t : State) (b : LockedBlock), run = .next t ∧
        t.icache = { s.icache with mode := m, locked := some b, fetchingLocked := false } ∧
        b.base = a ∧ b.words.length = k ∧
        (s.turns = [] → t = cache m (some b) ∧
          ∀ j, j < k → b.words[j]? = some (s.readWord (a + BitVec.ofNat 32 (4 * j))))) ∧
      (a &&& 15 ≠ 0 ∨ a.toNat < 0x400 → run = .refused .lockAddress)
    (msg = 0 → run = .next (if 8 ≤ f.toNat then (u.postInTable f).turn.checkPending
      else u.checkPending)) ∧
    (msg = 1 → run = .next
      { u with
        icache := { s.icache with image := s.mem, locked := none, fetchingLocked := false } }) ∧
    (msg = 2 →
      (f.getLsbD 0 = true → run = .next (cache .disabled none)) ∧
      (f = 0 → run = .next (cache .normal1k none)) ∧
      (f = 4 → loads .locked1k 256) ∧ (f = 6 → loads .locked512 128) ∧
      (f.getLsbD 0 = false → f ≠ 0 → f ≠ 4 → f ≠ 6 →
        run = takeFault s s .invalidOperand (s.ip + 4))) ∧
    (4 < msg → run = takeFault s s .invalidOperand (s.ip + 4))

/-- `sysctl` in supervisor mode, messages 03H and 04H: reinitialization starts at the given address
with the given PRCB in the state of the processor after initialization (the PRCB's contents are not
in the source: log 20) and keeps IMSK, IPND and the DMA controller, which is the spec's decision D51, as
are the empty caches and the cleared NMI flags; FP and SP are its decision D4, the unnamed bits of PC its
decision D3. The control table, the NMI vector and the pending priorities are read as little-endian words
(D6; log 37, DEDUCED), and the software priority is taken from the table by its decision D10. A group of
four control registers is loaded from the control table, and a group above 6 raises
OPERATION.INVALID_OPERAND (D37). -/
def Obligations.SystemControlLoads : Prop :=
  ∀ (src1 src2 : Src) (src3 : Src3) (s : State), s.untraced = true → s.em = true →
    s.canUseAll [(srcOperand src1).one, (srcOperand src2).one, (src3Operand src3).one] = true →
    let msg := ((s.value (srcOperand src1) 0).extractLsb' 8 8).toNat
    let g := ((s.value (srcOperand src1) 0).extractLsb' 0 8).toNat
    let run := exec (.sysctl src1 src2 src3) s
    let w (k : Nat) : Word := s.readWord (s.tables.ctrlTableBase + BitVec.ofNat 32 (16 * g + 4 * k))
    let u := s.advance 4
    (msg = 3 → completesWith run fun t => ∃ b : Boot,
      b.firstIp = s.value (srcOperand src2) 0 ∧ b.tables.prcbBase = s.value (src3Operand src3) 0 ∧
      b.ok = true ∧ t.Initialized b s.mem ∧ t.intc.imsk = s.intc.imsk ∧
      t.intc.ipnd = s.intc.ipnd ∧ t.dma = s.dma ∧ t.boot = s.boot) ∧
    (msg = 4 → 6 < g → run = takeFault s s .invalidOperand (s.ip + 4)) ∧
    (msg = 4 → g = 0 → run = .next
      { u with ctrl := { s.ctrl with ipb0 := w 0, ipb1 := w 1, dab0 := w 2, dab1 := w 3 } }) ∧
    (msg = 4 → g = 1 → run = .next
      { u with ctrl := { s.ctrl with imap0 := w 0, imap1 := w 1, imap2 := w 2, icon := w 3 } }) ∧
    (msg = 4 → 2 ≤ g → g ≤ 5 → ∃ m : Vector Word 16,
      run = .next { u with ctrl := { s.ctrl with mcon := m } } ∧
      ∀ k : Fin 16, m.get k =
        if 4 * (g - 2) ≤ k.val ∧ k.val < 4 * (g - 1) then w (k.val - 4 * (g - 2))
        else s.ctrl.mcon.get k) ∧
    (msg = 4 → g = 6 → run = .next
      { u with ctrl := { s.ctrl with bpcon := w 0, bcon := w 2 }, tc := w 1 })

/-- `sdma` sets up and starts a channel, on a running one it stops (U18, log 23); without data chaining a
literal third operand raises OPERATION.INVALID_OPERAND (the model's reading: log 42); `udma` writes the
status of the four channels to their blocks. Where the blocks lie, and which bit of the control word
with which value selects data chaining, is not in the source (log 11). -/
def Obligations.DmaResults : Prop :=
  ∀ (src1 src2 : Src) (src3 : Src3) (s : State), s.untraced = true → s.em = true →
    let c : Fin 4 := ((s.value (srcOperand src1) 0).extractLsb' 0 2).toFin
    let w := s.value (srcOperand src2) 0
    let o := src3Operand src3
    let words : List Word :=
      if chaining w then [s.value o 0] else [s.value o 0, s.value o 1, s.value o 2, s.value o 3]
    let m := (s.advance 4).writeWords (dmaBlock c) words
    (s.canUseAll [(srcOperand src1).one, (srcOperand src2).one] = true →
      (chaining w = true ∨ (∃ n : RegNum, src3 = .reg n ∧ n.toNat % 4 = 0) →
        (s.dma.started.get c = false → exec (.sdma src1 src2 src3) s = .next
          { m with
            dma :=
              { s.dma with
                control := s.dma.control.set c.val w
                started := s.dma.started.set c.val true } }) ∧
        (s.dma.started.get c = true →
          exec (.sdma src1 src2 src3) s = .refused .dmaChannelRunning)) ∧
      (chaining w = false → (∀ n : RegNum, src3 = .reg n → n.toNat % 4 ≠ 0) →
        exec (.sdma src1 src2 src3) s = takeEarlyFault s .invalidOperand (s.ip + 4))) ∧
    (s.mem.wf = true → completesWith (exec .udma s) fun t =>
      (∀ (d : Fin 4) (k : Fin 8), t.readWord (dmaBlock d + BitVec.ofNat 32 (4 * k.val)) =
        (s.dma.status.get d).get k) ∧
      (∀ x : Word, (∀ d : Fin 4, 32 ≤ (x - dmaBlock d).toNat) → t.readByte x = s.readByte x) ∧
      s.KeepsOutside t (.lit 0) 0 ∧ t.ip = s.ip + 4 ∧ t.ac = s.ac)

/-- Privilege and operands, for every form with operands but the loads and stores (AccessFaults) and the
addresses: in user mode `sysctl`, `sdma` and `udma` raise CONSTRAINT.PRIVILEGED and a special function
register raises TYPE.MISMATCH; else an operand that is not allowed, not aligned or not implemented raises
OPERATION.INVALID_OPERAND; nothing is written. The order of the checks is the spec's decision D18; that
mode combinations which Table 2-2 does not allow raise this fault is its decision D24, and that they
count as no special function register is log 26. That the dummy src1 of `modpc`, whose value is not used,
is checked like any source is log 33 (DEDUCED, unsafe), that a field which is read and written counts
with M3 = 1 as not allowed and not as a special function register log 26 (DESIGN CHOICE). These faults
are found before the instruction executes: other agents have no turn in their entry (R585 step 5). -/
def Obligations.OperandFaults : Prop :=
  ∀ (src1 src2 : Src) (src3 : Src3) (dst : Dst) (upd : Upd) (c1 : CSrc1) (c2 : CSrc2)
    (d : BitVec 11) (p : Bool) (s : State),
    let x := srcOperand src1
    let y := srcOperand src2
    let o := dstOperand dst
    let v := updOperand upd
    let checks (i : Instr) (us : List Use) : Prop :=
      (s.em = false → us.any Use.isSfr = true →
        exec i s = takeEarlyFault s .typeMismatch (s.ip + 4)) ∧
      (s.em = true ∨ us.any Use.isSfr = false → us.any Use.invalid = true →
        exec i s = takeEarlyFault s .invalidOperand (s.ip + 4))
    (s.em = false →
      exec (.sysctl src1 src2 src3) s = takeEarlyFault s .privileged (s.ip + 4) ∧
      exec (.sdma src1 src2 src3) s = takeEarlyFault s .privileged (s.ip + 4) ∧
      exec .udma s = takeEarlyFault s .privileged (s.ip + 4)) ∧
    (s.em = true →
      ([x.one, y.one, (src3Operand src3).one].any Use.invalid = true →
        exec (.sysctl src1 src2 src3) s = takeEarlyFault s .invalidOperand (s.ip + 4)) ∧
      ([x.one, y.one].any Use.invalid = true →
        exec (.sdma src1 src2 src3) s = takeEarlyFault s .invalidOperand (s.ip + 4))) ∧
    (∀ f ∈ [Instr.and, Instr.andnot, Instr.notand, Instr.xor, Instr.or, Instr.nor, Instr.xnor,
        Instr.ornot, Instr.notor, Instr.nand, Instr.setbit, Instr.clrbit, Instr.notbit,
        Instr.alterbit, Instr.addo, Instr.subo, Instr.mulo, Instr.shlo, Instr.shro, Instr.shri,
        Instr.shrdi, Instr.rotate, Instr.divo, Instr.remo, Instr.modi, Instr.addi, Instr.subi,
        Instr.muli, Instr.shli, Instr.divi, Instr.remi, Instr.addc, Instr.subc, Instr.cmpinco,
        Instr.cmpinci, Instr.cmpdeco, Instr.cmpdeci, Instr.modac, Instr.modtc],
      checks (f src1 src2 dst) [x.one, y.one, o.one]) ∧
    (∀ q ∈ [(Instr.emul src1 src2 dst, y.one, o.two), (Instr.ediv src1 src2 dst, y.two, o.two),
        (Instr.eshro src1 src2 dst, y.two, o.one)],
      checks q.1 [x.one, q.2.1, q.2.2]) ∧
    (∀ q ∈ [(Instr.mov src1 dst, x.one, o.one), (Instr.movl src1 dst, x.two, o.two),
        (Instr.movt src1 dst, x.three, o.three), (Instr.movq src1 dst, x.four, o.four),
        (Instr.not src1 dst, x.one, o.one), (Instr.scanbit src1 dst, x.one, o.one),
        (Instr.spanbit src1 dst, x.one, o.one)],
      checks q.1 [q.2.1, q.2.2]) ∧
    (∀ f ∈ [Instr.cmpo, Instr.cmpi, Instr.concmpo, Instr.concmpi, Instr.chkbit, Instr.scanbyte],
      checks (f src1 src2) [x.one, y.one]) ∧
    (∀ f ∈ [Instr.extract, Instr.modify, Instr.modpc],
      checks (f src1 src2 upd) [x.one, y.one, v.one]) ∧
    checks (.atmod src1 src2 upd) [(addressOperand src1).one, y.one, v.one] ∧
    checks (.atadd src1 src2 dst) [(addressOperand src1).one, y.one, o.one] ∧
    checks (.calls src1) [x.one] ∧
    (∀ f ∈ [Instr.testno, Instr.testg, Instr.teste, Instr.testge, Instr.testl, Instr.testne,
        Instr.testle, Instr.testo],
      checks (f upd) [v.one]) ∧
    (∀ f ∈ [Instr.bbc, Instr.bbs, Instr.cmpobg, Instr.cmpobe, Instr.cmpobge, Instr.cmpobl,
        Instr.cmpobne, Instr.cmpoble, Instr.cmpibno, Instr.cmpibg, Instr.cmpibe, Instr.cmpibge,
        Instr.cmpibl, Instr.cmpibne, Instr.cmpible, Instr.cmpibo],
      checks (f c1 c2 d p) [(csrc1Operand c1).one, (csrc2Operand c2).one])

/-! Taking faults and interrupts. -/

/-- Taking a fault, with call trace off: the kind of call and the target from the fault table, the
stack, the frame with its record, PC. `c` is the fault, `a` the fault IP and `rip` the return
address; `s.turn` and `s.turn.turn` are the states when the system-procedure table is read, other agents
coming between the reads (log 40). That bit 1 alone of an entry of either table decides is the spec's
decisions D31 and D47; a procedure number above 259 stops (U21, log 23). The clearing of PC.tfp, and of PC.te for a trace fault, is the spec's
decision D45, the reserved bytes of the record written 0 its decision D41. -/
def Obligations.FaultEntry : Prop :=
  ∀ (s : State) (c : FaultCode) (a rip : Word), s.mem.wf = true → s.tc.getLsbD 3 = false →
    let e := s.readWord (s.tables.faultTableBase + 8 * (faultType c).zeroExtend 32)
    let spe := s.turn.readWord (s.tables.sptBase + 48 + 4 * (e >>> 2))
    let ssp := s.turn.turn.readWord (s.tables.sptBase + 12)
    let same : Word := (if faultType c = 1 then s.pctl &&& 0xFFFFFFFE else s.pctl) &&& 0xFFFFFBFF
    let super : Word :=
      (s.pctl &&& 0xFFFFFBFC) ||| 2 ||| (if faultType c = 1 then 0 else ssp &&& 1)
    let enters (target stack pc : Word) : Prop :=
      let frame := ((stack + 15) &&& 0xFFFFFFF0) + 16
      ∃ t, s.enterFault c a rip = .ok t ∧
        s.FrameEntered t frame rip ((s.fp &&& 0xFFFFFFF0) ||| 1) (target &&& 0xFFFFFFFC) ∧
        t.pctl = pc ∧ t.ac = s.ac ∧ s.SameControl t ∧
        t.readWord (frame - 16) = s.pctl ∧ t.readWord (frame - 12) = s.ac ∧
        t.readWord (frame - 8) =
          ((faultType c).zeroExtend 32 <<< 16 ||| (faultSubtype c).zeroExtend 32) ∧
        t.readWord (frame - 4) = a
    (e.getLsbD 1 = false → enters e s.sp same) ∧
    (e.getLsbD 1 = true → (e >>> 2).toNat ≤ 259 →
      (spe.getLsbD 1 = false → enters spe s.sp same) ∧
      (spe.getLsbD 1 = true → enters spe (if s.em then s.sp else ssp &&& 0xFFFFFFFC) super)) ∧
    (e.getLsbD 1 = true → 259 < (e >>> 2).toNat →
      s.enterFault c a rip = .error .faultProcedureNumber)

/-- Taking an interrupt, with call trace off: the vector entry, the stack, the frame with its record,
PC with the interrupt's priority; for a hardware request IMSK goes to r3, whatever ICON.mo says (the
spec's decision D38(c)), and ICON.mo says whether it is then cleared. The vector number fills the word at
the frame minus 8 zero-extended (its decision D41). -/
def Obligations.InterruptEntry : Prop :=
  ∀ (s : State) (v : BitVec 8) (k : InterruptKind), s.mem.wf = true → s.tc.getLsbD 3 = false →
    let entry :=
      if k = .nmi then s.readWord 0
      else if s.ctrl.icon.getLsbD 13 = true ∧ v &&& 15 = 2 then
        s.readWord (4 * (v >>> 4).zeroExtend 32)
      else s.readWord (s.tables.intTableBase + 4 + 4 * v.zeroExtend 32)
    let stack := if s.interrupted then s.sp else s.tables.intStackBase
    let frame := ((stack + 15) &&& 0xFFFFFFF0) + 16
    let t := s.enterInterrupt v k
    s.FrameEntered t frame s.ip ((s.fp &&& 0xFFFFFFF0) ||| 7) (entry &&& 0xFFFFFFFC) ∧
    t.pctl = (s.pctl &&& 0xFFE0FBFE) ||| 0x2002 ||| ((v >>> 3).zeroExtend 32 <<< 16) ∧
    t.ac = s.ac ∧ t.readWord (frame - 16) = s.pctl ∧ t.readWord (frame - 12) = s.ac ∧
    t.readWord (frame - 8) = v.zeroExtend 32 ∧
    (k = .software → t.intc = s.intc) ∧
    (k ≠ .software → t.getReg 3 = s.intc.imsk ∧
      t.intc.imsk =
        if s.ctrl.icon.getLsbD (if k = .expanded then 12 else 11) then 0 else s.intc.imsk)

/-- A handler that returns at once resumes the program, after an interrupt entry and after a fault
entry: `ret` gives back the instruction pointer, the registers but r2, the register cache, AC and, where
the handler runs in supervisor mode, PC; a fault handler in user mode leaves PC as it found it. -/
def Obligations.HandlerReturns : Prop :=
  ∀ (s t : State), s.untraced = true → s.turns = [] → s.mem.wf = true → s.rcache.length < 5 →
    s.rcache.length < s.config.regcacheSets → s.fp &&& 15 = 0 →
    let resumes (rip : Word) (u : State) : Prop :=
      u.ip = rip &&& 0xFFFFFFFC ∧ u.locals = s.locals.set 2 rip ∧ u.globals = s.globals ∧
      u.rcache = s.rcache ∧ u.depth = s.depth ∧ u.ac = s.ac ∧
      u.pctl = if t.em then s.pctl else t.pctl
    (∀ (v : BitVec 8) (k : InterruptKind), t = s.enterInterrupt v k →
      completesWith (exec .ret t) fun u => resumes s.ip u ∧ u.pctl = s.pctl) ∧
    (∀ (c : FaultCode) (a rip : Word), s.enterFault c a rip = .ok t →
      completesWith (exec .ret t) (resumes rip))

/-- Software interrupts: a request posts the bit of its vector and the bit of its priority, though other
bus masters come between its requests, and itself changes no other byte; the service takes the highest
vector of the highest posted priority, clears its bit, clears the priority with the last vector of it,
and refreshes the software-priority register (the spec's decision D40). Meanwhile other bus masters leave
the table and the aligned 16-byte block of its first word alone: that they honour LOCK so is log 40
(DESIGN CHOICE; R123 and R506 ask it of the platform). -/
def Obligations.SoftwareInterrupts : Prop :=
  ∀ (s : State) (v : BitVec 8), s.mem.wf = true →
    let base := s.tables.intTableBase
    let w := s.readWord base
    let p : BitVec 5 := v.extractLsb' 3 5
    let byteOf (n : BitVec 5) : Word := base + 4 + n.zeroExtend 32
    (s.turns = [] ∨ (∀ c : Fin 4, s.dma.started.get c = false) →
      (s.postInTable v).readByte (byteOf p) =
        s.readByte (byteOf p) ||| BitVec.ofNat 8 (2 ^ (v.toNat % 8)) ∧
      (s.postInTable v).readWord base = w ||| BitVec.ofNat 32 (2 ^ p.toNat)) ∧
    (s.turns = [] → ∀ x : Word, x ≠ byteOf p → 4 ≤ (x - base).toNat →
      (s.postInTable v).readByte x = s.readByte x) ∧
    ((∀ c : Fin 4, s.dma.started.get c = false) → ∀ x : Word,
      (x - base).toNat < 1028 ∨ (x - (base &&& 0xFFFFFFF0)).toNat < 16 →
      x ≠ byteOf p → 4 ≤ (x - base).toNat → (s.postInTable v).readByte x = s.readByte x) ∧
    (∀ (n : BitVec 5) (b : Fin 8), n ≠ 0 → w.getLsbD n.toNat = true →
      (∀ m : BitVec 5, n < m → w.getLsbD m.toNat = false) → s.priority < n ∨ n = 31 →
      (s.readByte (byteOf n)).getLsbD b.val = true →
      (∀ d : Fin 8, b < d → (s.readByte (byteOf n)).getLsbD d.val = false) →
      ∃ u : State, s.takeSoftware =
          .entered (u.enterInterrupt (BitVec.ofNat 8 (8 * n.toNat + b.val)) .software) ∧
        u.readByte (byteOf n) = s.readByte (byteOf n) &&& ~~~BitVec.ofNat 8 (2 ^ b.val) ∧
        u.readWord base =
          (if s.readByte (byteOf n) = BitVec.ofNat 8 (2 ^ b.val)
            then w &&& ~~~BitVec.ofNat 32 (2 ^ n.toNat) else w) ∧
        u.intc.swPriority = highestPriority (u.readWord base) ∧
        u.locals = s.locals ∧ u.globals = s.globals ∧ u.pctl = s.pctl ∧ u.ip = s.ip)

/-- Hardware interrupts. What the inputs latch: a low pin or, where ICON.sdm asks for an edge, a pin that
falls sets its bit of IPND if the mode makes it a dedicated input, a request of a started DMA channel its
bit, an edge of NMI the NMI's; nothing is masked there. What requests: a dedicated source with its bits
of IPND and IMSK, unless ICON.gie masks all or its IMAP field is 0000b (U12), with the vector PPPP0010b;
in expanded and mixed mode the number on the pins, masked by IMSK bit 0, from 8 on; mask bits that must
be 0 are ignored (the spec's decision D38(a)). The candidate has the highest vector. It goes before the
posted software interrupt if its priority is higher, or the same below 31, and either is taken exactly if
its priority is above the processor's or 31. Taking a dedicated request clears the bit of the
highest-numbered source of that vector (D38(b)); an expanded one alone clears nothing. That a request
which is expanded and dedicated at once clears the dedicated source's bit is log 28 (DESIGN CHOICE). That
a DMA channel requests only once it is started is log 38 (DESIGN CHOICE, from the spec's decision D14),
that no pin is a dedicated input in the undefined mode 11b log 23 (DESIGN CHOICE). -/
def Obligations.HardwareDelivery : Prop :=
  ∀ s : State,
    let im := s.ctrl.icon.extractLsb' 0 2
    let dedicated (k : Nat) : Prop := 8 ≤ k ∨ im = 0 ∨ (im = 2 ∧ 5 ≤ k)
    let pins := (s.intc.events.head?.map ExternalEvent.xint).getD s.intc.xint
    let nmi := (s.intc.events.head?.map ExternalEvent.nmi).getD s.intc.nmiPin
    let dma := (s.intc.events.head?.map ExternalEvent.dmaRequest).getD 0
    (∀ k : Nat, k < 8 → (s.sampleInputs.intc.ipnd.getLsbD k = true ↔
      s.intc.ipnd.getLsbD k = true ∨ (dedicated k ∧ pins.getLsbD k = false ∧
        (s.ctrl.icon.getLsbD (2 + k) = false ∨ s.intc.xint.getLsbD k = true)))) ∧
    (∀ c : Fin 4, (s.sampleInputs.intc.ipnd.getLsbD (8 + c.val) = true ↔
      s.intc.ipnd.getLsbD (8 + c.val) = true ∨
        (dma.getLsbD c.val = true ∧ s.dma.started.get c = true))) ∧
    (∀ k : Nat, 12 ≤ k → s.sampleInputs.intc.ipnd.getLsbD k = s.intc.ipnd.getLsbD k) ∧
    (s.sampleInputs.intc.nmiPending = true ↔
      s.intc.nmiPending = true ∨ (s.intc.nmiPin = true ∧ nmi = false)) ∧
    s.sampleInputs.intc.xint = pins ∧ s.sampleInputs.intc.nmiPin = nmi ∧
    (∀ k : Nat, k < 12 →
      (s.requests k = true ↔ dedicated k ∧ s.intc.ipnd.getLsbD k = true ∧
        s.intc.imsk.getLsbD k = true ∧ s.ctrl.icon.getLsbD 10 = false ∧ s.mapField k ≠ 0) ∧
      s.dedicatedVector k = s.mapField k ++ 2#4 ∧
      s.mapField k = ((if k < 4 then s.ctrl.imap0 else if k < 8 then s.ctrl.imap1 else s.ctrl.imap2)
        >>> (4 * (k % 4))).truncate 4) ∧
    (let number : BitVec 8 :=
       if im = 1 then ~~~s.intc.xint
       else if im = 2 then ((~~~s.intc.xint &&& 0x1F) <<< 3) ||| 2
       else 0
     s.expandedVector =
       if s.intc.imsk.getLsbD 0 = true ∧ s.ctrl.icon.getLsbD 10 = false ∧ 8 ≤ number then number
       else 0) ∧
    let v := s.hardwareVector
    let p : BitVec 5 := v.extractLsb' 3 5
    let posted := s.intc.swPriority
    (∀ k : Nat, k < 12 → s.requests k = true → s.dedicatedVector k ≤ v) ∧
    s.expandedVector ≤ v ∧
    (v = s.expandedVector ∨ ∃ k, k < 12 ∧ s.requests k = true ∧ v = s.dedicatedVector k) ∧
    (v ≠ 0 → s.priority < p ∨ p = 31 → posted = 0 ∨ posted < p ∨ (posted = p ∧ p ≠ 31) →
      s.deliver = .entered (s.takeHardware v)) ∧
    (posted ≠ 0 → s.priority < posted ∨ posted = 31 → v = 0 ∨ p < posted ∨ (posted = p ∧ p = 31) →
      s.deliver = s.takeSoftware) ∧
    (v = 0 ∨ (p ≤ s.priority ∧ p ≠ 31) → posted = 0 ∨ (posted ≤ s.priority ∧ posted ≠ 31) →
      s.deliver = .quiet s) ∧
    (∀ k : Nat, k < 12 → s.requests k = true → s.dedicatedVector k = v →
      (∀ j, k < j → j < 12 → s.requests j = true → s.dedicatedVector j ≠ v) →
      (s.takeHardware v).intc.ipnd = s.intc.ipnd &&& ~~~(1#32 <<< k)) ∧
    ((∀ k : Nat, k < 12 → s.requests k = true → s.dedicatedVector k ≠ v) →
      (s.takeHardware v).intc.ipnd = s.intc.ipnd)

/-- The NMI is taken whatever the masks and priorities are, with priority 31 and the handler that data
RAM word 0 names; while it is in service nothing is delivered. That the service is tied to the call depth
of its frame is log 27 (DEDUCED from the spec's decision D39). -/
def Obligations.NmiService : Prop :=
  ∀ s : State,
    (s.intc.nmiPending = true → s.intc.nmiDepth = none →
      completesWith s.afterSampling fun t =>
        t.ip = s.readWord 0 &&& 0xFFFFFFFC ∧ t.priority = 31 ∧ t.em = true ∧ t.te = false ∧
        t.interrupted = true ∧ t.intc.nmiPending = false ∧ t.intc.nmiDepth = some t.depth) ∧
    (s.intc.nmiDepth.isSome = true → s.afterSampling = s.afterInterrupts)

/-! Rules of the whole machine. -/

/-- No instruction executed in user mode changes the special function registers, the control registers,
the cached pointers, the DMA controller or the mode and contents of the instruction cache, whether it
completes or faults. -/
def Obligations.UserModeKeepsControl : Prop :=
  ∀ (i : Instr) (s t : State), s.em = false → exec i s = .next t → s.SameControl t

/-- User mode is left only by entering a new frame: through a fault, whose return type is 001b, or
through `calls`, whose return type is 010b or 011b. -/
def Obligations.UserModeLeft : Prop :=
  ∀ (i : Instr) (s t : State), s.em = false → exec i s = .next t → t.em = true →
    t.depth = s.depth + 1 ∧
    ((t.pfp &&& 7).toNat = 1 ∨
      ((∃ src, i = .calls src) ∧ ((t.pfp &&& 7).toNat = 2 ∨ (t.pfp &&& 7).toNat = 3)))

/-- No instruction outside the list of those that write AC.cc changes it, whether it completes or
faults. -/
def Obligations.ConditionCodeKept : Prop :=
  ∀ (i : Instr) (s t : State), writesCc i = false → exec i s = .next t → t.cc = s.cc
end

