-- ==== Sys2Proof/Laws/Encoding.lean ====
section
/-! SUPPORT. The fields of the words that the encoder packs, as the decoder reads them; each pack lemma
says that one field of one format comes back. -/

namespace Sys2Proof

section
variable (op : BitVec 8) (disp : BitVec 22) (t : Bool)

theorem packCtrl_op : (packCtrl op disp t).extractLsb' 24 8 = op := by
  apply BitVec.eq_of_getLsbD_eq
  intro i h
  simp only [packCtrl, BitVec.getLsbD_extractLsb', BitVec.getLsbD_append, h, decide_true,
    Bool.true_and]
  repeat rw [if_neg (by omega)]
  congr 1
  omega
theorem packCtrl_disp : (packCtrl op disp t).extractLsb' 2 22 = disp := by
  apply BitVec.eq_of_getLsbD_eq
  intro i h
  simp only [packCtrl, BitVec.getLsbD_extractLsb', BitVec.getLsbD_append, h, decide_true,
    Bool.true_and]
  repeat rw [if_neg (by omega)]
  rw [if_pos (by omega)]
  congr 1
  omega
theorem packCtrl_t : (packCtrl op disp t).getLsbD 1 = t := by
  simp only [packCtrl, BitVec.getLsbD_append]
  cases t <;> rfl

end

section
variable (op : BitVec 8) (src1 src2 : BitVec 5) (m1 : Bool) (disp : BitVec 11) (t s2 : Bool)

theorem packCobr_op : (packCobr op src1 src2 m1 disp t s2).extractLsb' 24 8 = op := by
  apply BitVec.eq_of_getLsbD_eq
  intro i h
  simp only [packCobr, BitVec.getLsbD_extractLsb', BitVec.getLsbD_append, h, decide_true,
    Bool.true_and]
  repeat rw [if_neg (by omega)]
  congr 1
  omega
theorem packCobr_hi : (packCobr op src1 src2 m1 disp t s2).extractLsb' 19 5 = src1 := by
  apply BitVec.eq_of_getLsbD_eq
  intro i h
  simp only [packCobr, BitVec.getLsbD_extractLsb', BitVec.getLsbD_append, h, decide_true,
    Bool.true_and]
  repeat rw [if_neg (by omega)]
  rw [if_pos (by omega)]
  congr 1
  omega
theorem packCobr_mid : (packCobr op src1 src2 m1 disp t s2).extractLsb' 14 5 = src2 := by
  apply BitVec.eq_of_getLsbD_eq
  intro i h
  simp only [packCobr, BitVec.getLsbD_extractLsb', BitVec.getLsbD_append, h, decide_true,
    Bool.true_and]
  repeat rw [if_neg (by omega)]
  rw [if_pos (by omega)]
  congr 1
  omega
theorem packCobr_m1 : (packCobr op src1 src2 m1 disp t s2).getLsbD 13 = m1 := by
  simp only [packCobr, BitVec.getLsbD_append]
  cases m1 <;> rfl
theorem packCobr_disp : (packCobr op src1 src2 m1 disp t s2).extractLsb' 2 11 = disp := by
  apply BitVec.eq_of_getLsbD_eq
  intro i h
  simp only [packCobr, BitVec.getLsbD_extractLsb', BitVec.getLsbD_append, h, decide_true,
    Bool.true_and]
  repeat rw [if_neg (by omega)]
  rw [if_pos (by omega)]
  congr 1
  omega
theorem packCobr_t : (packCobr op src1 src2 m1 disp t s2).getLsbD 1 = t := by
  simp only [packCobr, BitVec.getLsbD_append]
  cases t <;> rfl
theorem packCobr_s2 : (packCobr op src1 src2 m1 disp t s2).getLsbD 0 = s2 := by
  simp only [packCobr, BitVec.getLsbD_append]
  cases s2 <;> rfl

end

section
variable (hi : BitVec 8) (lo : BitVec 4) (srcDst src2 : BitVec 5) (m3 m2 m1 s2 s1 : Bool)
    (src1 : BitVec 5)

theorem packReg_op : (packReg hi lo srcDst src2 m3 m2 m1 s2 s1 src1).extractLsb' 24 8 = hi := by
  apply BitVec.eq_of_getLsbD_eq
  intro i h
  simp only [packReg, BitVec.getLsbD_extractLsb', BitVec.getLsbD_append, h, decide_true,
    Bool.true_and]
  repeat rw [if_neg (by omega)]
  congr 1
  omega
theorem packReg_hi : (packReg hi lo srcDst src2 m3 m2 m1 s2 s1 src1).extractLsb' 19 5 = srcDst := by
  apply BitVec.eq_of_getLsbD_eq
  intro i h
  simp only [packReg, BitVec.getLsbD_extractLsb', BitVec.getLsbD_append, h, decide_true,
    Bool.true_and]
  repeat rw [if_neg (by omega)]
  rw [if_pos (by omega)]
  congr 1
  omega
theorem packReg_mid : (packReg hi lo srcDst src2 m3 m2 m1 s2 s1 src1).extractLsb' 14 5 = src2 := by
  apply BitVec.eq_of_getLsbD_eq
  intro i h
  simp only [packReg, BitVec.getLsbD_extractLsb', BitVec.getLsbD_append, h, decide_true,
    Bool.true_and]
  repeat rw [if_neg (by omega)]
  rw [if_pos (by omega)]
  congr 1
  omega
theorem packReg_m3 : (packReg hi lo srcDst src2 m3 m2 m1 s2 s1 src1).getLsbD 13 = m3 := by
  simp only [packReg, BitVec.getLsbD_append]
  cases m3 <;> rfl
theorem packReg_m2 : (packReg hi lo srcDst src2 m3 m2 m1 s2 s1 src1).getLsbD 12 = m2 := by
  simp only [packReg, BitVec.getLsbD_append]
  cases m2 <;> rfl
theorem packReg_m1 : (packReg hi lo srcDst src2 m3 m2 m1 s2 s1 src1).getLsbD 11 = m1 := by
  simp only [packReg, BitVec.getLsbD_append]
  cases m1 <;> rfl
theorem packReg_sub : (packReg hi lo srcDst src2 m3 m2 m1 s2 s1 src1).extractLsb' 7 4 = lo := by
  apply BitVec.eq_of_getLsbD_eq
  intro i h
  simp only [packReg, BitVec.getLsbD_extractLsb', BitVec.getLsbD_append, h, decide_true,
    Bool.true_and]
  repeat rw [if_neg (by omega)]
  rw [if_pos (by omega)]
  congr 1
  omega
theorem packReg_s2 : (packReg hi lo srcDst src2 m3 m2 m1 s2 s1 src1).getLsbD 6 = s2 := by
  simp only [packReg, BitVec.getLsbD_append]
  cases s2 <;> rfl
theorem packReg_s1 : (packReg hi lo srcDst src2 m3 m2 m1 s2 s1 src1).getLsbD 5 = s1 := by
  simp only [packReg, BitVec.getLsbD_append]
  cases s1 <;> rfl
theorem packReg_lo : (packReg hi lo srcDst src2 m3 m2 m1 s2 s1 src1).extractLsb' 0 5 = src1 := by
  apply BitVec.eq_of_getLsbD_eq
  intro i h
  simp only [packReg, BitVec.getLsbD_extractLsb', BitVec.getLsbD_append, h, decide_true,
    Bool.true_and]
  rw [if_pos (by omega)]
  congr 1
  omega

end

section
variable (op : BitVec 8) (reg abase : BitVec 5) (mode : Bool) (offset : BitVec 12)

theorem packMema_op : (packMema op reg abase mode offset).extractLsb' 24 8 = op := by
  apply BitVec.eq_of_getLsbD_eq
  intro i h
  simp only [packMema, BitVec.getLsbD_extractLsb', BitVec.getLsbD_append, h, decide_true,
    Bool.true_and]
  repeat rw [if_neg (by omega)]
  congr 1
  omega
theorem packMema_hi : (packMema op reg abase mode offset).extractLsb' 19 5 = reg := by
  apply BitVec.eq_of_getLsbD_eq
  intro i h
  simp only [packMema, BitVec.getLsbD_extractLsb', BitVec.getLsbD_append, h, decide_true,
    Bool.true_and]
  repeat rw [if_neg (by omega)]
  rw [if_pos (by omega)]
  congr 1
  omega
theorem packMema_mid : (packMema op reg abase mode offset).extractLsb' 14 5 = abase := by
  apply BitVec.eq_of_getLsbD_eq
  intro i h
  simp only [packMema, BitVec.getLsbD_extractLsb', BitVec.getLsbD_append, h, decide_true,
    Bool.true_and]
  repeat rw [if_neg (by omega)]
  rw [if_pos (by omega)]
  congr 1
  omega
theorem packMema_mode : (packMema op reg abase mode offset).getLsbD 13 = mode := by
  simp only [packMema, BitVec.getLsbD_append]
  cases mode <;> rfl
theorem packMema_memb : (packMema op reg abase mode offset).getLsbD 12 = false := by
  simp only [packMema, BitVec.getLsbD_append]
  rfl
theorem packMema_offset : (packMema op reg abase mode offset).extractLsb' 0 12 = offset := by
  apply BitVec.eq_of_getLsbD_eq
  intro i h
  simp only [packMema, BitVec.getLsbD_extractLsb', BitVec.getLsbD_append, h, decide_true,
    Bool.true_and]
  rw [if_pos (by omega)]
  congr 1
  omega

end

section
variable (op : BitVec 8) (reg abase : BitVec 5) (mode : BitVec 4) (scale : BitVec 3)
    (index : BitVec 5)

theorem packMemb_op : (packMemb op reg abase mode scale index).extractLsb' 24 8 = op := by
  apply BitVec.eq_of_getLsbD_eq
  intro i h
  simp only [packMemb, BitVec.getLsbD_extractLsb', BitVec.getLsbD_append, h, decide_true,
    Bool.true_and]
  repeat rw [if_neg (by omega)]
  congr 1
  omega
theorem packMemb_hi : (packMemb op reg abase mode scale index).extractLsb' 19 5 = reg := by
  apply BitVec.eq_of_getLsbD_eq
  intro i h
  simp only [packMemb, BitVec.getLsbD_extractLsb', BitVec.getLsbD_append, h, decide_true,
    Bool.true_and]
  repeat rw [if_neg (by omega)]
  rw [if_pos (by omega)]
  congr 1
  omega
theorem packMemb_mid : (packMemb op reg abase mode scale index).extractLsb' 14 5 = abase := by
  apply BitVec.eq_of_getLsbD_eq
  intro i h
  simp only [packMemb, BitVec.getLsbD_extractLsb', BitVec.getLsbD_append, h, decide_true,
    Bool.true_and]
  repeat rw [if_neg (by omega)]
  rw [if_pos (by omega)]
  congr 1
  omega
theorem packMemb_mode : (packMemb op reg abase mode scale index).extractLsb' 10 4 = mode := by
  apply BitVec.eq_of_getLsbD_eq
  intro i h
  simp only [packMemb, BitVec.getLsbD_extractLsb', BitVec.getLsbD_append, h, decide_true,
    Bool.true_and]
  repeat rw [if_neg (by omega)]
  rw [if_pos (by omega)]
  congr 1
  omega
theorem packMemb_scale : (packMemb op reg abase mode scale index).extractLsb' 7 3 = scale := by
  apply BitVec.eq_of_getLsbD_eq
  intro i h
  simp only [packMemb, BitVec.getLsbD_extractLsb', BitVec.getLsbD_append, h, decide_true,
    Bool.true_and]
  repeat rw [if_neg (by omega)]
  rw [if_pos (by omega)]
  congr 1
  omega
theorem packMemb_lo : (packMemb op reg abase mode scale index).extractLsb' 0 5 = index := by
  apply BitVec.eq_of_getLsbD_eq
  intro i h
  simp only [packMemb, BitVec.getLsbD_extractLsb', BitVec.getLsbD_append, h, decide_true,
    Bool.true_and]
  rw [if_pos (by omega)]
  congr 1
  omega

end

end Sys2Proof
end

