-- ==== Sys2Proof/Laws/State.lean ====
section
/-! SUPPORT. What each update leaves of each field of the state: one lemma per field per update. -/

namespace Sys2Proof.Machine

/-! `advance` -/

@[simp] theorem State.advance_locals (s : State) (n : Word) : (s.advance n).locals = s.locals := rfl
@[simp] theorem State.advance_globals (s : State) (n : Word) : (s.advance n).globals = s.globals := rfl
@[simp] theorem State.advance_ac (s : State) (n : Word) : (s.advance n).ac = s.ac := rfl
@[simp] theorem State.advance_pctl (s : State) (n : Word) : (s.advance n).pctl = s.pctl := rfl
@[simp] theorem State.advance_tc (s : State) (n : Word) : (s.advance n).tc = s.tc := rfl
@[simp] theorem State.advance_mem (s : State) (n : Word) : (s.advance n).mem = s.mem := rfl
@[simp] theorem State.advance_rcache (s : State) (n : Word) : (s.advance n).rcache = s.rcache := rfl
@[simp] theorem State.advance_depth (s : State) (n : Word) : (s.advance n).depth = s.depth := rfl
@[simp] theorem State.advance_tables (s : State) (n : Word) : (s.advance n).tables = s.tables := rfl
@[simp] theorem State.advance_config (s : State) (n : Word) : (s.advance n).config = s.config := rfl
@[simp] theorem State.advance_ctrl (s : State) (n : Word) : (s.advance n).ctrl = s.ctrl := rfl
@[simp] theorem State.advance_intc (s : State) (n : Word) : (s.advance n).intc = s.intc := rfl
@[simp] theorem State.advance_dma (s : State) (n : Word) : (s.advance n).dma = s.dma := rfl
@[simp] theorem State.advance_icache (s : State) (n : Word) : (s.advance n).icache = s.icache := rfl
@[simp] theorem State.advance_trace (s : State) (n : Word) : (s.advance n).trace = s.trace := rfl
@[simp] theorem State.advance_draws (s : State) (n : Word) : (s.advance n).draws = s.draws := rfl
@[simp] theorem State.advance_boot (s : State) (n : Word) : (s.advance n).boot = s.boot := rfl
@[simp] theorem State.advance_turns (s : State) (n : Word) : (s.advance n).turns = s.turns := rfl
@[simp] theorem State.advance_ip (s : State) (n : Word) : (s.advance n).ip = s.ip + n := rfl

/-! `goTo` -/

@[simp] theorem State.goTo_locals (s : State) (a : Word) : (s.goTo a).locals = s.locals := rfl
@[simp] theorem State.goTo_globals (s : State) (a : Word) : (s.goTo a).globals = s.globals := rfl
@[simp] theorem State.goTo_ac (s : State) (a : Word) : (s.goTo a).ac = s.ac := rfl
@[simp] theorem State.goTo_pctl (s : State) (a : Word) : (s.goTo a).pctl = s.pctl := rfl
@[simp] theorem State.goTo_tc (s : State) (a : Word) : (s.goTo a).tc = s.tc := rfl
@[simp] theorem State.goTo_mem (s : State) (a : Word) : (s.goTo a).mem = s.mem := rfl
@[simp] theorem State.goTo_rcache (s : State) (a : Word) : (s.goTo a).rcache = s.rcache := rfl
@[simp] theorem State.goTo_depth (s : State) (a : Word) : (s.goTo a).depth = s.depth := rfl
@[simp] theorem State.goTo_tables (s : State) (a : Word) : (s.goTo a).tables = s.tables := rfl
@[simp] theorem State.goTo_config (s : State) (a : Word) : (s.goTo a).config = s.config := rfl
@[simp] theorem State.goTo_ctrl (s : State) (a : Word) : (s.goTo a).ctrl = s.ctrl := rfl
@[simp] theorem State.goTo_intc (s : State) (a : Word) : (s.goTo a).intc = s.intc := rfl
@[simp] theorem State.goTo_dma (s : State) (a : Word) : (s.goTo a).dma = s.dma := rfl
@[simp] theorem State.goTo_trace (s : State) (a : Word) : (s.goTo a).trace = s.trace := rfl
@[simp] theorem State.goTo_draws (s : State) (a : Word) : (s.goTo a).draws = s.draws := rfl
@[simp] theorem State.goTo_boot (s : State) (a : Word) : (s.goTo a).boot = s.boot := rfl
@[simp] theorem State.goTo_turns (s : State) (a : Word) : (s.goTo a).turns = s.turns := rfl
@[simp] theorem State.goTo_ip (s : State) (a : Word) : (s.goTo a).ip = a := rfl

/-! `setCc` -/

@[simp] theorem State.setCc_locals (s : State) (c : BitVec 3) : (s.setCc c).locals = s.locals := rfl
@[simp] theorem State.setCc_globals (s : State) (c : BitVec 3) : (s.setCc c).globals = s.globals := rfl
@[simp] theorem State.setCc_ip (s : State) (c : BitVec 3) : (s.setCc c).ip = s.ip := rfl
@[simp] theorem State.setCc_pctl (s : State) (c : BitVec 3) : (s.setCc c).pctl = s.pctl := rfl
@[simp] theorem State.setCc_tc (s : State) (c : BitVec 3) : (s.setCc c).tc = s.tc := rfl
@[simp] theorem State.setCc_mem (s : State) (c : BitVec 3) : (s.setCc c).mem = s.mem := rfl
@[simp] theorem State.setCc_rcache (s : State) (c : BitVec 3) : (s.setCc c).rcache = s.rcache := rfl
@[simp] theorem State.setCc_depth (s : State) (c : BitVec 3) : (s.setCc c).depth = s.depth := rfl
@[simp] theorem State.setCc_tables (s : State) (c : BitVec 3) : (s.setCc c).tables = s.tables := rfl
@[simp] theorem State.setCc_config (s : State) (c : BitVec 3) : (s.setCc c).config = s.config := rfl
@[simp] theorem State.setCc_ctrl (s : State) (c : BitVec 3) : (s.setCc c).ctrl = s.ctrl := rfl
@[simp] theorem State.setCc_intc (s : State) (c : BitVec 3) : (s.setCc c).intc = s.intc := rfl
@[simp] theorem State.setCc_dma (s : State) (c : BitVec 3) : (s.setCc c).dma = s.dma := rfl
@[simp] theorem State.setCc_icache (s : State) (c : BitVec 3) : (s.setCc c).icache = s.icache := rfl
@[simp] theorem State.setCc_trace (s : State) (c : BitVec 3) : (s.setCc c).trace = s.trace := rfl
@[simp] theorem State.setCc_draws (s : State) (c : BitVec 3) : (s.setCc c).draws = s.draws := rfl
@[simp] theorem State.setCc_boot (s : State) (c : BitVec 3) : (s.setCc c).boot = s.boot := rfl
@[simp] theorem State.setCc_turns (s : State) (c : BitVec 3) : (s.setCc c).turns = s.turns := rfl

/-! `setPctl` -/

@[simp] theorem State.setPctl_locals (s : State) (w : Word) : (s.setPctl w).locals = s.locals := rfl
@[simp] theorem State.setPctl_globals (s : State) (w : Word) : (s.setPctl w).globals = s.globals := rfl
@[simp] theorem State.setPctl_ip (s : State) (w : Word) : (s.setPctl w).ip = s.ip := rfl
@[simp] theorem State.setPctl_ac (s : State) (w : Word) : (s.setPctl w).ac = s.ac := rfl
@[simp] theorem State.setPctl_tc (s : State) (w : Word) : (s.setPctl w).tc = s.tc := rfl
@[simp] theorem State.setPctl_mem (s : State) (w : Word) : (s.setPctl w).mem = s.mem := rfl
@[simp] theorem State.setPctl_rcache (s : State) (w : Word) : (s.setPctl w).rcache = s.rcache := rfl
@[simp] theorem State.setPctl_depth (s : State) (w : Word) : (s.setPctl w).depth = s.depth := rfl
@[simp] theorem State.setPctl_tables (s : State) (w : Word) : (s.setPctl w).tables = s.tables := rfl
@[simp] theorem State.setPctl_config (s : State) (w : Word) : (s.setPctl w).config = s.config := rfl
@[simp] theorem State.setPctl_ctrl (s : State) (w : Word) : (s.setPctl w).ctrl = s.ctrl := rfl
@[simp] theorem State.setPctl_intc (s : State) (w : Word) : (s.setPctl w).intc = s.intc := rfl
@[simp] theorem State.setPctl_dma (s : State) (w : Word) : (s.setPctl w).dma = s.dma := rfl
@[simp] theorem State.setPctl_icache (s : State) (w : Word) : (s.setPctl w).icache = s.icache := rfl
@[simp] theorem State.setPctl_draws (s : State) (w : Word) : (s.setPctl w).draws = s.draws := rfl
@[simp] theorem State.setPctl_boot (s : State) (w : Word) : (s.setPctl w).boot = s.boot := rfl
@[simp] theorem State.setPctl_turns (s : State) (w : Word) : (s.setPctl w).turns = s.turns := rfl
@[simp] theorem State.setPctl_pctl (s : State) (w : Word) : (s.setPctl w).pctl = w := rfl

/-! `writeByte` -/

@[simp] theorem State.writeByte_locals (s : State) (a : Word) (v : Byte) : (s.writeByte a v).locals = s.locals := rfl
@[simp] theorem State.writeByte_globals (s : State) (a : Word) (v : Byte) : (s.writeByte a v).globals = s.globals := rfl
@[simp] theorem State.writeByte_ip (s : State) (a : Word) (v : Byte) : (s.writeByte a v).ip = s.ip := rfl
@[simp] theorem State.writeByte_ac (s : State) (a : Word) (v : Byte) : (s.writeByte a v).ac = s.ac := rfl
@[simp] theorem State.writeByte_pctl (s : State) (a : Word) (v : Byte) : (s.writeByte a v).pctl = s.pctl := rfl
@[simp] theorem State.writeByte_tc (s : State) (a : Word) (v : Byte) : (s.writeByte a v).tc = s.tc := rfl
@[simp] theorem State.writeByte_rcache (s : State) (a : Word) (v : Byte) : (s.writeByte a v).rcache = s.rcache := rfl
@[simp] theorem State.writeByte_depth (s : State) (a : Word) (v : Byte) : (s.writeByte a v).depth = s.depth := rfl
@[simp] theorem State.writeByte_tables (s : State) (a : Word) (v : Byte) : (s.writeByte a v).tables = s.tables := rfl
@[simp] theorem State.writeByte_config (s : State) (a : Word) (v : Byte) : (s.writeByte a v).config = s.config := rfl
@[simp] theorem State.writeByte_ctrl (s : State) (a : Word) (v : Byte) : (s.writeByte a v).ctrl = s.ctrl := rfl
@[simp] theorem State.writeByte_intc (s : State) (a : Word) (v : Byte) : (s.writeByte a v).intc = s.intc := rfl
@[simp] theorem State.writeByte_dma (s : State) (a : Word) (v : Byte) : (s.writeByte a v).dma = s.dma := rfl
@[simp] theorem State.writeByte_icache (s : State) (a : Word) (v : Byte) : (s.writeByte a v).icache = s.icache := rfl
@[simp] theorem State.writeByte_trace (s : State) (a : Word) (v : Byte) : (s.writeByte a v).trace = s.trace := rfl
@[simp] theorem State.writeByte_draws (s : State) (a : Word) (v : Byte) : (s.writeByte a v).draws = s.draws := rfl
@[simp] theorem State.writeByte_boot (s : State) (a : Word) (v : Byte) : (s.writeByte a v).boot = s.boot := rfl
@[simp] theorem State.writeByte_turns (s : State) (a : Word) (v : Byte) : (s.writeByte a v).turns = s.turns := rfl
@[simp] theorem State.writeByte_mem (s : State) (a : Word) (v : Byte) :
    (s.writeByte a v).mem = s.mem.write a.toNat v := rfl

/-! `writeBytes` and the wider writes: only memory changes. -/

theorem State.writeBytes_eq (s : State) (a : Word) (bs : List Byte) :
    ∃ m, s.writeBytes a bs = { s with mem := m } := by
  induction bs generalizing s a with
  | nil => exact ⟨s.mem, rfl⟩
  | cons b bs ih =>
    obtain ⟨m, h⟩ := ih (s.writeByte a b) (a + 1)
    exact ⟨m, h⟩

theorem State.writeWords_eq (s : State) (a : Word) (ws : List Word) :
    ∃ m, s.writeWords a ws = { s with mem := m } := by
  induction ws generalizing s a with
  | nil => exact ⟨s.mem, rfl⟩
  | cons w ws ih =>
    obtain ⟨m, h⟩ := s.writeBytes_eq a (bytesOfWord (s.bigEndian a) w)
    obtain ⟨m', h'⟩ := ih (s.writeWord a w) (a + 4)
    refine ⟨m', ?_⟩
    show (s.writeWord a w).writeWords (a + 4) ws = _
    rw [h']
    show { s.writeBytes a (bytesOfWord (s.bigEndian a) w) with mem := m' } = _
    rw [h]

@[simp] theorem State.writeBytes_locals (s : State) (a : Word) (bs : List Byte) : (s.writeBytes a bs).locals = s.locals := by
  obtain ⟨m, h⟩ := s.writeBytes_eq a bs; rw [h]
@[simp] theorem State.writeBytes_globals (s : State) (a : Word) (bs : List Byte) : (s.writeBytes a bs).globals = s.globals := by
  obtain ⟨m, h⟩ := s.writeBytes_eq a bs; rw [h]
@[simp] theorem State.writeBytes_ip (s : State) (a : Word) (bs : List Byte) : (s.writeBytes a bs).ip = s.ip := by
  obtain ⟨m, h⟩ := s.writeBytes_eq a bs; rw [h]
@[simp] theorem State.writeBytes_ac (s : State) (a : Word) (bs : List Byte) : (s.writeBytes a bs).ac = s.ac := by
  obtain ⟨m, h⟩ := s.writeBytes_eq a bs; rw [h]
@[simp] theorem State.writeBytes_pctl (s : State) (a : Word) (bs : List Byte) : (s.writeBytes a bs).pctl = s.pctl := by
  obtain ⟨m, h⟩ := s.writeBytes_eq a bs; rw [h]
@[simp] theorem State.writeBytes_tc (s : State) (a : Word) (bs : List Byte) : (s.writeBytes a bs).tc = s.tc := by
  obtain ⟨m, h⟩ := s.writeBytes_eq a bs; rw [h]
@[simp] theorem State.writeBytes_rcache (s : State) (a : Word) (bs : List Byte) : (s.writeBytes a bs).rcache = s.rcache := by
  obtain ⟨m, h⟩ := s.writeBytes_eq a bs; rw [h]
@[simp] theorem State.writeBytes_depth (s : State) (a : Word) (bs : List Byte) : (s.writeBytes a bs).depth = s.depth := by
  obtain ⟨m, h⟩ := s.writeBytes_eq a bs; rw [h]
@[simp] theorem State.writeBytes_tables (s : State) (a : Word) (bs : List Byte) : (s.writeBytes a bs).tables = s.tables := by
  obtain ⟨m, h⟩ := s.writeBytes_eq a bs; rw [h]
@[simp] theorem State.writeBytes_config (s : State) (a : Word) (bs : List Byte) : (s.writeBytes a bs).config = s.config := by
  obtain ⟨m, h⟩ := s.writeBytes_eq a bs; rw [h]
@[simp] theorem State.writeBytes_ctrl (s : State) (a : Word) (bs : List Byte) : (s.writeBytes a bs).ctrl = s.ctrl := by
  obtain ⟨m, h⟩ := s.writeBytes_eq a bs; rw [h]
@[simp] theorem State.writeBytes_intc (s : State) (a : Word) (bs : List Byte) : (s.writeBytes a bs).intc = s.intc := by
  obtain ⟨m, h⟩ := s.writeBytes_eq a bs; rw [h]
@[simp] theorem State.writeBytes_dma (s : State) (a : Word) (bs : List Byte) : (s.writeBytes a bs).dma = s.dma := by
  obtain ⟨m, h⟩ := s.writeBytes_eq a bs; rw [h]
@[simp] theorem State.writeBytes_icache (s : State) (a : Word) (bs : List Byte) : (s.writeBytes a bs).icache = s.icache := by
  obtain ⟨m, h⟩ := s.writeBytes_eq a bs; rw [h]
@[simp] theorem State.writeBytes_trace (s : State) (a : Word) (bs : List Byte) : (s.writeBytes a bs).trace = s.trace := by
  obtain ⟨m, h⟩ := s.writeBytes_eq a bs; rw [h]
@[simp] theorem State.writeBytes_draws (s : State) (a : Word) (bs : List Byte) : (s.writeBytes a bs).draws = s.draws := by
  obtain ⟨m, h⟩ := s.writeBytes_eq a bs; rw [h]
@[simp] theorem State.writeBytes_boot (s : State) (a : Word) (bs : List Byte) : (s.writeBytes a bs).boot = s.boot := by
  obtain ⟨m, h⟩ := s.writeBytes_eq a bs; rw [h]
@[simp] theorem State.writeBytes_turns (s : State) (a : Word) (bs : List Byte) : (s.writeBytes a bs).turns = s.turns := by
  obtain ⟨m, h⟩ := s.writeBytes_eq a bs; rw [h]

@[simp] theorem State.writeHalf_locals (s : State) (a : Word) (v : BitVec 16) : (s.writeHalf a v).locals = s.locals :=
  s.writeBytes_locals a _
@[simp] theorem State.writeHalf_globals (s : State) (a : Word) (v : BitVec 16) : (s.writeHalf a v).globals = s.globals :=
  s.writeBytes_globals a _
@[simp] theorem State.writeHalf_ip (s : State) (a : Word) (v : BitVec 16) : (s.writeHalf a v).ip = s.ip :=
  s.writeBytes_ip a _
@[simp] theorem State.writeHalf_ac (s : State) (a : Word) (v : BitVec 16) : (s.writeHalf a v).ac = s.ac :=
  s.writeBytes_ac a _
@[simp] theorem State.writeHalf_pctl (s : State) (a : Word) (v : BitVec 16) : (s.writeHalf a v).pctl = s.pctl :=
  s.writeBytes_pctl a _
@[simp] theorem State.writeHalf_tc (s : State) (a : Word) (v : BitVec 16) : (s.writeHalf a v).tc = s.tc :=
  s.writeBytes_tc a _
@[simp] theorem State.writeHalf_rcache (s : State) (a : Word) (v : BitVec 16) : (s.writeHalf a v).rcache = s.rcache :=
  s.writeBytes_rcache a _
@[simp] theorem State.writeHalf_depth (s : State) (a : Word) (v : BitVec 16) : (s.writeHalf a v).depth = s.depth :=
  s.writeBytes_depth a _
@[simp] theorem State.writeHalf_tables (s : State) (a : Word) (v : BitVec 16) : (s.writeHalf a v).tables = s.tables :=
  s.writeBytes_tables a _
@[simp] theorem State.writeHalf_config (s : State) (a : Word) (v : BitVec 16) : (s.writeHalf a v).config = s.config :=
  s.writeBytes_config a _
@[simp] theorem State.writeHalf_ctrl (s : State) (a : Word) (v : BitVec 16) : (s.writeHalf a v).ctrl = s.ctrl :=
  s.writeBytes_ctrl a _
@[simp] theorem State.writeHalf_intc (s : State) (a : Word) (v : BitVec 16) : (s.writeHalf a v).intc = s.intc :=
  s.writeBytes_intc a _
@[simp] theorem State.writeHalf_dma (s : State) (a : Word) (v : BitVec 16) : (s.writeHalf a v).dma = s.dma :=
  s.writeBytes_dma a _
@[simp] theorem State.writeHalf_icache (s : State) (a : Word) (v : BitVec 16) : (s.writeHalf a v).icache = s.icache :=
  s.writeBytes_icache a _
@[simp] theorem State.writeHalf_trace (s : State) (a : Word) (v : BitVec 16) : (s.writeHalf a v).trace = s.trace :=
  s.writeBytes_trace a _
@[simp] theorem State.writeHalf_draws (s : State) (a : Word) (v : BitVec 16) : (s.writeHalf a v).draws = s.draws :=
  s.writeBytes_draws a _
@[simp] theorem State.writeHalf_boot (s : State) (a : Word) (v : BitVec 16) : (s.writeHalf a v).boot = s.boot :=
  s.writeBytes_boot a _
@[simp] theorem State.writeHalf_turns (s : State) (a : Word) (v : BitVec 16) : (s.writeHalf a v).turns = s.turns :=
  s.writeBytes_turns a _

@[simp] theorem State.writeWord_locals (s : State) (a v : Word) : (s.writeWord a v).locals = s.locals :=
  s.writeBytes_locals a _
@[simp] theorem State.writeWord_globals (s : State) (a v : Word) : (s.writeWord a v).globals = s.globals :=
  s.writeBytes_globals a _
@[simp] theorem State.writeWord_ip (s : State) (a v : Word) : (s.writeWord a v).ip = s.ip :=
  s.writeBytes_ip a _
@[simp] theorem State.writeWord_ac (s : State) (a v : Word) : (s.writeWord a v).ac = s.ac :=
  s.writeBytes_ac a _
@[simp] theorem State.writeWord_pctl (s : State) (a v : Word) : (s.writeWord a v).pctl = s.pctl :=
  s.writeBytes_pctl a _
@[simp] theorem State.writeWord_tc (s : State) (a v : Word) : (s.writeWord a v).tc = s.tc :=
  s.writeBytes_tc a _
@[simp] theorem State.writeWord_rcache (s : State) (a v : Word) : (s.writeWord a v).rcache = s.rcache :=
  s.writeBytes_rcache a _
@[simp] theorem State.writeWord_depth (s : State) (a v : Word) : (s.writeWord a v).depth = s.depth :=
  s.writeBytes_depth a _
@[simp] theorem State.writeWord_tables (s : State) (a v : Word) : (s.writeWord a v).tables = s.tables :=
  s.writeBytes_tables a _
@[simp] theorem State.writeWord_config (s : State) (a v : Word) : (s.writeWord a v).config = s.config :=
  s.writeBytes_config a _
@[simp] theorem State.writeWord_ctrl (s : State) (a v : Word) : (s.writeWord a v).ctrl = s.ctrl :=
  s.writeBytes_ctrl a _
@[simp] theorem State.writeWord_intc (s : State) (a v : Word) : (s.writeWord a v).intc = s.intc :=
  s.writeBytes_intc a _
@[simp] theorem State.writeWord_dma (s : State) (a v : Word) : (s.writeWord a v).dma = s.dma :=
  s.writeBytes_dma a _
@[simp] theorem State.writeWord_icache (s : State) (a v : Word) : (s.writeWord a v).icache = s.icache :=
  s.writeBytes_icache a _
@[simp] theorem State.writeWord_trace (s : State) (a v : Word) : (s.writeWord a v).trace = s.trace :=
  s.writeBytes_trace a _
@[simp] theorem State.writeWord_draws (s : State) (a v : Word) : (s.writeWord a v).draws = s.draws :=
  s.writeBytes_draws a _
@[simp] theorem State.writeWord_boot (s : State) (a v : Word) : (s.writeWord a v).boot = s.boot :=
  s.writeBytes_boot a _
@[simp] theorem State.writeWord_turns (s : State) (a v : Word) : (s.writeWord a v).turns = s.turns :=
  s.writeBytes_turns a _

@[simp] theorem State.writeWords_locals (s : State) (a : Word) (ws : List Word) : (s.writeWords a ws).locals = s.locals := by
  obtain ⟨m, h⟩ := s.writeWords_eq a ws; rw [h]
@[simp] theorem State.writeWords_globals (s : State) (a : Word) (ws : List Word) : (s.writeWords a ws).globals = s.globals := by
  obtain ⟨m, h⟩ := s.writeWords_eq a ws; rw [h]
@[simp] theorem State.writeWords_ip (s : State) (a : Word) (ws : List Word) : (s.writeWords a ws).ip = s.ip := by
  obtain ⟨m, h⟩ := s.writeWords_eq a ws; rw [h]
@[simp] theorem State.writeWords_ac (s : State) (a : Word) (ws : List Word) : (s.writeWords a ws).ac = s.ac := by
  obtain ⟨m, h⟩ := s.writeWords_eq a ws; rw [h]
@[simp] theorem State.writeWords_pctl (s : State) (a : Word) (ws : List Word) : (s.writeWords a ws).pctl = s.pctl := by
  obtain ⟨m, h⟩ := s.writeWords_eq a ws; rw [h]
@[simp] theorem State.writeWords_tc (s : State) (a : Word) (ws : List Word) : (s.writeWords a ws).tc = s.tc := by
  obtain ⟨m, h⟩ := s.writeWords_eq a ws; rw [h]
@[simp] theorem State.writeWords_rcache (s : State) (a : Word) (ws : List Word) : (s.writeWords a ws).rcache = s.rcache := by
  obtain ⟨m, h⟩ := s.writeWords_eq a ws; rw [h]
@[simp] theorem State.writeWords_depth (s : State) (a : Word) (ws : List Word) : (s.writeWords a ws).depth = s.depth := by
  obtain ⟨m, h⟩ := s.writeWords_eq a ws; rw [h]
@[simp] theorem State.writeWords_tables (s : State) (a : Word) (ws : List Word) : (s.writeWords a ws).tables = s.tables := by
  obtain ⟨m, h⟩ := s.writeWords_eq a ws; rw [h]
@[simp] theorem State.writeWords_config (s : State) (a : Word) (ws : List Word) : (s.writeWords a ws).config = s.config := by
  obtain ⟨m, h⟩ := s.writeWords_eq a ws; rw [h]
@[simp] theorem State.writeWords_ctrl (s : State) (a : Word) (ws : List Word) : (s.writeWords a ws).ctrl = s.ctrl := by
  obtain ⟨m, h⟩ := s.writeWords_eq a ws; rw [h]
@[simp] theorem State.writeWords_intc (s : State) (a : Word) (ws : List Word) : (s.writeWords a ws).intc = s.intc := by
  obtain ⟨m, h⟩ := s.writeWords_eq a ws; rw [h]
@[simp] theorem State.writeWords_dma (s : State) (a : Word) (ws : List Word) : (s.writeWords a ws).dma = s.dma := by
  obtain ⟨m, h⟩ := s.writeWords_eq a ws; rw [h]
@[simp] theorem State.writeWords_icache (s : State) (a : Word) (ws : List Word) : (s.writeWords a ws).icache = s.icache := by
  obtain ⟨m, h⟩ := s.writeWords_eq a ws; rw [h]
@[simp] theorem State.writeWords_trace (s : State) (a : Word) (ws : List Word) : (s.writeWords a ws).trace = s.trace := by
  obtain ⟨m, h⟩ := s.writeWords_eq a ws; rw [h]
@[simp] theorem State.writeWords_draws (s : State) (a : Word) (ws : List Word) : (s.writeWords a ws).draws = s.draws := by
  obtain ⟨m, h⟩ := s.writeWords_eq a ws; rw [h]
@[simp] theorem State.writeWords_boot (s : State) (a : Word) (ws : List Word) : (s.writeWords a ws).boot = s.boot := by
  obtain ⟨m, h⟩ := s.writeWords_eq a ws; rw [h]
@[simp] theorem State.writeWords_turns (s : State) (a : Word) (ws : List Word) : (s.writeWords a ws).turns = s.turns := by
  obtain ⟨m, h⟩ := s.writeWords_eq a ws; rw [h]

/-! `setReg` -/

@[simp] theorem State.setReg_ip (s : State) (n : RegNum) (v : Word) : (s.setReg n v).ip = s.ip := by
  unfold State.setReg; split <;> rfl
@[simp] theorem State.setReg_ac (s : State) (n : RegNum) (v : Word) : (s.setReg n v).ac = s.ac := by
  unfold State.setReg; split <;> rfl
@[simp] theorem State.setReg_pctl (s : State) (n : RegNum) (v : Word) : (s.setReg n v).pctl = s.pctl := by
  unfold State.setReg; split <;> rfl
@[simp] theorem State.setReg_tc (s : State) (n : RegNum) (v : Word) : (s.setReg n v).tc = s.tc := by
  unfold State.setReg; split <;> rfl
@[simp] theorem State.setReg_mem (s : State) (n : RegNum) (v : Word) : (s.setReg n v).mem = s.mem := by
  unfold State.setReg; split <;> rfl
@[simp] theorem State.setReg_rcache (s : State) (n : RegNum) (v : Word) : (s.setReg n v).rcache = s.rcache := by
  unfold State.setReg; split <;> rfl
@[simp] theorem State.setReg_depth (s : State) (n : RegNum) (v : Word) : (s.setReg n v).depth = s.depth := by
  unfold State.setReg; split <;> rfl
@[simp] theorem State.setReg_tables (s : State) (n : RegNum) (v : Word) : (s.setReg n v).tables = s.tables := by
  unfold State.setReg; split <;> rfl
@[simp] theorem State.setReg_config (s : State) (n : RegNum) (v : Word) : (s.setReg n v).config = s.config := by
  unfold State.setReg; split <;> rfl
@[simp] theorem State.setReg_ctrl (s : State) (n : RegNum) (v : Word) : (s.setReg n v).ctrl = s.ctrl := by
  unfold State.setReg; split <;> rfl
@[simp] theorem State.setReg_intc (s : State) (n : RegNum) (v : Word) : (s.setReg n v).intc = s.intc := by
  unfold State.setReg; split <;> rfl
@[simp] theorem State.setReg_dma (s : State) (n : RegNum) (v : Word) : (s.setReg n v).dma = s.dma := by
  unfold State.setReg; split <;> rfl
@[simp] theorem State.setReg_icache (s : State) (n : RegNum) (v : Word) : (s.setReg n v).icache = s.icache := by
  unfold State.setReg; split <;> rfl
@[simp] theorem State.setReg_trace (s : State) (n : RegNum) (v : Word) : (s.setReg n v).trace = s.trace := by
  unfold State.setReg; split <;> rfl
@[simp] theorem State.setReg_draws (s : State) (n : RegNum) (v : Word) : (s.setReg n v).draws = s.draws := by
  unfold State.setReg; split <;> rfl
@[simp] theorem State.setReg_boot (s : State) (n : RegNum) (v : Word) : (s.setReg n v).boot = s.boot := by
  unfold State.setReg; split <;> rfl
@[simp] theorem State.setReg_turns (s : State) (n : RegNum) (v : Word) : (s.setReg n v).turns = s.turns := by
  unfold State.setReg; split <;> rfl

/-! `setSfr` -/

@[simp] theorem State.setSfr_locals (s : State) (n : BitVec 5) (v : Word) : (s.setSfr n v).locals = s.locals := by
  unfold State.setSfr; split <;> rfl
@[simp] theorem State.setSfr_globals (s : State) (n : BitVec 5) (v : Word) : (s.setSfr n v).globals = s.globals := by
  unfold State.setSfr; split <;> rfl
@[simp] theorem State.setSfr_ip (s : State) (n : BitVec 5) (v : Word) : (s.setSfr n v).ip = s.ip := by
  unfold State.setSfr; split <;> rfl
@[simp] theorem State.setSfr_ac (s : State) (n : BitVec 5) (v : Word) : (s.setSfr n v).ac = s.ac := by
  unfold State.setSfr; split <;> rfl
@[simp] theorem State.setSfr_pctl (s : State) (n : BitVec 5) (v : Word) : (s.setSfr n v).pctl = s.pctl := by
  unfold State.setSfr; split <;> rfl
@[simp] theorem State.setSfr_tc (s : State) (n : BitVec 5) (v : Word) : (s.setSfr n v).tc = s.tc := by
  unfold State.setSfr; split <;> rfl
@[simp] theorem State.setSfr_mem (s : State) (n : BitVec 5) (v : Word) : (s.setSfr n v).mem = s.mem := by
  unfold State.setSfr; split <;> rfl
@[simp] theorem State.setSfr_rcache (s : State) (n : BitVec 5) (v : Word) : (s.setSfr n v).rcache = s.rcache := by
  unfold State.setSfr; split <;> rfl
@[simp] theorem State.setSfr_depth (s : State) (n : BitVec 5) (v : Word) : (s.setSfr n v).depth = s.depth := by
  unfold State.setSfr; split <;> rfl
@[simp] theorem State.setSfr_tables (s : State) (n : BitVec 5) (v : Word) : (s.setSfr n v).tables = s.tables := by
  unfold State.setSfr; split <;> rfl
@[simp] theorem State.setSfr_config (s : State) (n : BitVec 5) (v : Word) : (s.setSfr n v).config = s.config := by
  unfold State.setSfr; split <;> rfl
@[simp] theorem State.setSfr_ctrl (s : State) (n : BitVec 5) (v : Word) : (s.setSfr n v).ctrl = s.ctrl := by
  unfold State.setSfr; split <;> rfl
@[simp] theorem State.setSfr_icache (s : State) (n : BitVec 5) (v : Word) : (s.setSfr n v).icache = s.icache := by
  unfold State.setSfr; split <;> rfl
@[simp] theorem State.setSfr_trace (s : State) (n : BitVec 5) (v : Word) : (s.setSfr n v).trace = s.trace := by
  unfold State.setSfr; split <;> rfl
@[simp] theorem State.setSfr_draws (s : State) (n : BitVec 5) (v : Word) : (s.setSfr n v).draws = s.draws := by
  unfold State.setSfr; split <;> rfl
@[simp] theorem State.setSfr_boot (s : State) (n : BitVec 5) (v : Word) : (s.setSfr n v).boot = s.boot := by
  unfold State.setSfr; split <;> rfl
@[simp] theorem State.setSfr_turns (s : State) (n : BitVec 5) (v : Word) : (s.setSfr n v).turns = s.turns := by
  unfold State.setSfr; split <;> rfl

/-! `putValue` -/

@[simp] theorem State.putValue_ip (s : State) (o : Operand) (k : Nat) (v : Word) : (s.putValue o k v).ip = s.ip := by
  cases o <;> simp [State.putValue]
@[simp] theorem State.putValue_ac (s : State) (o : Operand) (k : Nat) (v : Word) : (s.putValue o k v).ac = s.ac := by
  cases o <;> simp [State.putValue]
@[simp] theorem State.putValue_pctl (s : State) (o : Operand) (k : Nat) (v : Word) : (s.putValue o k v).pctl = s.pctl := by
  cases o <;> simp [State.putValue]
@[simp] theorem State.putValue_tc (s : State) (o : Operand) (k : Nat) (v : Word) : (s.putValue o k v).tc = s.tc := by
  cases o <;> simp [State.putValue]
@[simp] theorem State.putValue_mem (s : State) (o : Operand) (k : Nat) (v : Word) : (s.putValue o k v).mem = s.mem := by
  cases o <;> simp [State.putValue]
@[simp] theorem State.putValue_rcache (s : State) (o : Operand) (k : Nat) (v : Word) : (s.putValue o k v).rcache = s.rcache := by
  cases o <;> simp [State.putValue]
@[simp] theorem State.putValue_depth (s : State) (o : Operand) (k : Nat) (v : Word) : (s.putValue o k v).depth = s.depth := by
  cases o <;> simp [State.putValue]
@[simp] theorem State.putValue_tables (s : State) (o : Operand) (k : Nat) (v : Word) : (s.putValue o k v).tables = s.tables := by
  cases o <;> simp [State.putValue]
@[simp] theorem State.putValue_config (s : State) (o : Operand) (k : Nat) (v : Word) : (s.putValue o k v).config = s.config := by
  cases o <;> simp [State.putValue]
@[simp] theorem State.putValue_ctrl (s : State) (o : Operand) (k : Nat) (v : Word) : (s.putValue o k v).ctrl = s.ctrl := by
  cases o <;> simp [State.putValue]
@[simp] theorem State.putValue_icache (s : State) (o : Operand) (k : Nat) (v : Word) : (s.putValue o k v).icache = s.icache := by
  cases o <;> simp [State.putValue]
@[simp] theorem State.putValue_trace (s : State) (o : Operand) (k : Nat) (v : Word) : (s.putValue o k v).trace = s.trace := by
  cases o <;> simp [State.putValue]
@[simp] theorem State.putValue_draws (s : State) (o : Operand) (k : Nat) (v : Word) : (s.putValue o k v).draws = s.draws := by
  cases o <;> simp [State.putValue]
@[simp] theorem State.putValue_boot (s : State) (o : Operand) (k : Nat) (v : Word) : (s.putValue o k v).boot = s.boot := by
  cases o <;> simp [State.putValue]
@[simp] theorem State.putValue_turns (s : State) (o : Operand) (k : Nat) (v : Word) : (s.putValue o k v).turns = s.turns := by
  cases o <;> simp [State.putValue]

/-! `putWords` -/

@[simp] theorem State.putWords_ip (s : State) (o : Operand) (k : Nat) (ws : List Word) :
    (s.putWords o k ws).ip = s.ip := by
  induction ws generalizing s k with
  | nil => rfl
  | cons w ws ih => simp [State.putWords, ih]
@[simp] theorem State.putWords_ac (s : State) (o : Operand) (k : Nat) (ws : List Word) :
    (s.putWords o k ws).ac = s.ac := by
  induction ws generalizing s k with
  | nil => rfl
  | cons w ws ih => simp [State.putWords, ih]
@[simp] theorem State.putWords_pctl (s : State) (o : Operand) (k : Nat) (ws : List Word) :
    (s.putWords o k ws).pctl = s.pctl := by
  induction ws generalizing s k with
  | nil => rfl
  | cons w ws ih => simp [State.putWords, ih]
@[simp] theorem State.putWords_tc (s : State) (o : Operand) (k : Nat) (ws : List Word) :
    (s.putWords o k ws).tc = s.tc := by
  induction ws generalizing s k with
  | nil => rfl
  | cons w ws ih => simp [State.putWords, ih]
@[simp] theorem State.putWords_mem (s : State) (o : Operand) (k : Nat) (ws : List Word) :
    (s.putWords o k ws).mem = s.mem := by
  induction ws generalizing s k with
  | nil => rfl
  | cons w ws ih => simp [State.putWords, ih]
@[simp] theorem State.putWords_rcache (s : State) (o : Operand) (k : Nat) (ws : List Word) :
    (s.putWords o k ws).rcache = s.rcache := by
  induction ws generalizing s k with
  | nil => rfl
  | cons w ws ih => simp [State.putWords, ih]
@[simp] theorem State.putWords_depth (s : State) (o : Operand) (k : Nat) (ws : List Word) :
    (s.putWords o k ws).depth = s.depth := by
  induction ws generalizing s k with
  | nil => rfl
  | cons w ws ih => simp [State.putWords, ih]
@[simp] theorem State.putWords_tables (s : State) (o : Operand) (k : Nat) (ws : List Word) :
    (s.putWords o k ws).tables = s.tables := by
  induction ws generalizing s k with
  | nil => rfl
  | cons w ws ih => simp [State.putWords, ih]
@[simp] theorem State.putWords_config (s : State) (o : Operand) (k : Nat) (ws : List Word) :
    (s.putWords o k ws).config = s.config := by
  induction ws generalizing s k with
  | nil => rfl
  | cons w ws ih => simp [State.putWords, ih]
@[simp] theorem State.putWords_ctrl (s : State) (o : Operand) (k : Nat) (ws : List Word) :
    (s.putWords o k ws).ctrl = s.ctrl := by
  induction ws generalizing s k with
  | nil => rfl
  | cons w ws ih => simp [State.putWords, ih]
@[simp] theorem State.putWords_icache (s : State) (o : Operand) (k : Nat) (ws : List Word) :
    (s.putWords o k ws).icache = s.icache := by
  induction ws generalizing s k with
  | nil => rfl
  | cons w ws ih => simp [State.putWords, ih]
@[simp] theorem State.putWords_trace (s : State) (o : Operand) (k : Nat) (ws : List Word) :
    (s.putWords o k ws).trace = s.trace := by
  induction ws generalizing s k with
  | nil => rfl
  | cons w ws ih => simp [State.putWords, ih]
@[simp] theorem State.putWords_draws (s : State) (o : Operand) (k : Nat) (ws : List Word) :
    (s.putWords o k ws).draws = s.draws := by
  induction ws generalizing s k with
  | nil => rfl
  | cons w ws ih => simp [State.putWords, ih]
@[simp] theorem State.putWords_boot (s : State) (o : Operand) (k : Nat) (ws : List Word) :
    (s.putWords o k ws).boot = s.boot := by
  induction ws generalizing s k with
  | nil => rfl
  | cons w ws ih => simp [State.putWords, ih]
@[simp] theorem State.putWords_turns (s : State) (o : Operand) (k : Nat) (ws : List Word) :
    (s.putWords o k ws).turns = s.turns := by
  induction ws generalizing s k with
  | nil => rfl
  | cons w ws ih => simp [State.putWords, ih]

/-! `signal` -/

@[simp] theorem State.signal_locals (s : State) (w : Word) (te : Bool) (a : Word) : (s.signal w te a).locals = s.locals := by
  unfold State.signal; split <;> [rfl; (split <;> rfl)]
@[simp] theorem State.signal_globals (s : State) (w : Word) (te : Bool) (a : Word) : (s.signal w te a).globals = s.globals := by
  unfold State.signal; split <;> [rfl; (split <;> rfl)]
@[simp] theorem State.signal_ip (s : State) (w : Word) (te : Bool) (a : Word) : (s.signal w te a).ip = s.ip := by
  unfold State.signal; split <;> [rfl; (split <;> rfl)]
@[simp] theorem State.signal_ac (s : State) (w : Word) (te : Bool) (a : Word) : (s.signal w te a).ac = s.ac := by
  unfold State.signal; split <;> [rfl; (split <;> rfl)]
@[simp] theorem State.signal_mem (s : State) (w : Word) (te : Bool) (a : Word) : (s.signal w te a).mem = s.mem := by
  unfold State.signal; split <;> [rfl; (split <;> rfl)]
@[simp] theorem State.signal_rcache (s : State) (w : Word) (te : Bool) (a : Word) : (s.signal w te a).rcache = s.rcache := by
  unfold State.signal; split <;> [rfl; (split <;> rfl)]
@[simp] theorem State.signal_depth (s : State) (w : Word) (te : Bool) (a : Word) : (s.signal w te a).depth = s.depth := by
  unfold State.signal; split <;> [rfl; (split <;> rfl)]
@[simp] theorem State.signal_tables (s : State) (w : Word) (te : Bool) (a : Word) : (s.signal w te a).tables = s.tables := by
  unfold State.signal; split <;> [rfl; (split <;> rfl)]
@[simp] theorem State.signal_config (s : State) (w : Word) (te : Bool) (a : Word) : (s.signal w te a).config = s.config := by
  unfold State.signal; split <;> [rfl; (split <;> rfl)]
@[simp] theorem State.signal_ctrl (s : State) (w : Word) (te : Bool) (a : Word) : (s.signal w te a).ctrl = s.ctrl := by
  unfold State.signal; split <;> [rfl; (split <;> rfl)]
@[simp] theorem State.signal_intc (s : State) (w : Word) (te : Bool) (a : Word) : (s.signal w te a).intc = s.intc := by
  unfold State.signal; split <;> [rfl; (split <;> rfl)]
@[simp] theorem State.signal_dma (s : State) (w : Word) (te : Bool) (a : Word) : (s.signal w te a).dma = s.dma := by
  unfold State.signal; split <;> [rfl; (split <;> rfl)]
@[simp] theorem State.signal_icache (s : State) (w : Word) (te : Bool) (a : Word) : (s.signal w te a).icache = s.icache := by
  unfold State.signal; split <;> [rfl; (split <;> rfl)]
@[simp] theorem State.signal_draws (s : State) (w : Word) (te : Bool) (a : Word) : (s.signal w te a).draws = s.draws := by
  unfold State.signal; split <;> [rfl; (split <;> rfl)]
@[simp] theorem State.signal_boot (s : State) (w : Word) (te : Bool) (a : Word) : (s.signal w te a).boot = s.boot := by
  unfold State.signal; split <;> [rfl; (split <;> rfl)]
@[simp] theorem State.signal_turns (s : State) (w : Word) (te : Bool) (a : Word) : (s.signal w te a).turns = s.turns := by
  unfold State.signal; split <;> [rfl; (split <;> rfl)]

/-! `checkPending` -/

@[simp] theorem State.checkPending_locals (s : State) : (s.checkPending).locals = s.locals := rfl
@[simp] theorem State.checkPending_globals (s : State) : (s.checkPending).globals = s.globals := rfl
@[simp] theorem State.checkPending_ip (s : State) : (s.checkPending).ip = s.ip := rfl
@[simp] theorem State.checkPending_ac (s : State) : (s.checkPending).ac = s.ac := rfl
@[simp] theorem State.checkPending_pctl (s : State) : (s.checkPending).pctl = s.pctl := rfl
@[simp] theorem State.checkPending_tc (s : State) : (s.checkPending).tc = s.tc := rfl
@[simp] theorem State.checkPending_mem (s : State) : (s.checkPending).mem = s.mem := rfl
@[simp] theorem State.checkPending_rcache (s : State) : (s.checkPending).rcache = s.rcache := rfl
@[simp] theorem State.checkPending_depth (s : State) : (s.checkPending).depth = s.depth := rfl
@[simp] theorem State.checkPending_tables (s : State) : (s.checkPending).tables = s.tables := rfl
@[simp] theorem State.checkPending_config (s : State) : (s.checkPending).config = s.config := rfl
@[simp] theorem State.checkPending_ctrl (s : State) : (s.checkPending).ctrl = s.ctrl := rfl
@[simp] theorem State.checkPending_dma (s : State) : (s.checkPending).dma = s.dma := rfl
@[simp] theorem State.checkPending_icache (s : State) : (s.checkPending).icache = s.icache := rfl
@[simp] theorem State.checkPending_trace (s : State) : (s.checkPending).trace = s.trace := rfl
@[simp] theorem State.checkPending_draws (s : State) : (s.checkPending).draws = s.draws := rfl
@[simp] theorem State.checkPending_boot (s : State) : (s.checkPending).boot = s.boot := rfl
@[simp] theorem State.checkPending_turns (s : State) : (s.checkPending).turns = s.turns := rfl

/-! `ageWindows` -/

@[simp] theorem State.ageWindows_locals (s : State) : (s.ageWindows).locals = s.locals := by
  unfold State.ageWindows; split <;> rfl
@[simp] theorem State.ageWindows_globals (s : State) : (s.ageWindows).globals = s.globals := by
  unfold State.ageWindows; split <;> rfl
@[simp] theorem State.ageWindows_ip (s : State) : (s.ageWindows).ip = s.ip := by
  unfold State.ageWindows; split <;> rfl
@[simp] theorem State.ageWindows_ac (s : State) : (s.ageWindows).ac = s.ac := by
  unfold State.ageWindows; split <;> rfl
@[simp] theorem State.ageWindows_pctl (s : State) : (s.ageWindows).pctl = s.pctl := by
  unfold State.ageWindows; split <;> rfl
@[simp] theorem State.ageWindows_tc (s : State) : (s.ageWindows).tc = s.tc := by
  unfold State.ageWindows; split <;> rfl
@[simp] theorem State.ageWindows_mem (s : State) : (s.ageWindows).mem = s.mem := by
  unfold State.ageWindows; split <;> rfl
@[simp] theorem State.ageWindows_rcache (s : State) : (s.ageWindows).rcache = s.rcache := by
  unfold State.ageWindows; split <;> rfl
@[simp] theorem State.ageWindows_depth (s : State) : (s.ageWindows).depth = s.depth := by
  unfold State.ageWindows; split <;> rfl
@[simp] theorem State.ageWindows_tables (s : State) : (s.ageWindows).tables = s.tables := by
  unfold State.ageWindows; split <;> rfl
@[simp] theorem State.ageWindows_config (s : State) : (s.ageWindows).config = s.config := by
  unfold State.ageWindows; split <;> rfl
@[simp] theorem State.ageWindows_ctrl (s : State) : (s.ageWindows).ctrl = s.ctrl := by
  unfold State.ageWindows; split <;> rfl
@[simp] theorem State.ageWindows_intc (s : State) : (s.ageWindows).intc = s.intc := by
  unfold State.ageWindows; split <;> rfl
@[simp] theorem State.ageWindows_dma (s : State) : (s.ageWindows).dma = s.dma := by
  unfold State.ageWindows; split <;> rfl
@[simp] theorem State.ageWindows_icache (s : State) : (s.ageWindows).icache = s.icache := by
  unfold State.ageWindows; split <;> rfl
@[simp] theorem State.ageWindows_boot (s : State) : (s.ageWindows).boot = s.boot := by
  unfold State.ageWindows; split <;> rfl
@[simp] theorem State.ageWindows_turns (s : State) : (s.ageWindows).turns = s.turns := by
  unfold State.ageWindows; split <;> rfl

/-! The turns of other agents: memory and what is left of the turns change. -/

/-- What an agent writes changes memory only. -/
theorem State.agentWrite_eq (s : State) (c : Host.Cell) : ∃ m, s.agentWrite c = { s with mem := m } := by
  unfold State.agentWrite
  dsimp only
  split
  · exact ⟨s.mem, rfl⟩
  · exact ⟨_, rfl⟩

theorem State.agentWrites_eq (cs : List Host.Cell) (s : State) :
    ∃ m, cs.foldl State.agentWrite s = { s with mem := m } := by
  induction cs generalizing s with
  | nil => exact ⟨s.mem, rfl⟩
  | cons c cs ih =>
    obtain ⟨m, hm⟩ := s.agentWrite_eq c
    obtain ⟨m', h'⟩ := ih (s.agentWrite c)
    exact ⟨m', by rw [List.foldl_cons, h', hm]⟩

/-- A turn changes memory and the turns left. -/
theorem State.turn_eq (s : State) : ∃ m ts, s.turn = { s with mem := m, turns := ts } := by
  unfold State.turn
  split
  · exact ⟨s.mem, s.turns, rfl⟩
  · next ws rest h =>
    obtain ⟨m, hm⟩ := State.agentWrites_eq ws { s with turns := rest }
    exact ⟨m, rest, hm⟩

theorem State.lockedTurn_eq (s : State) (a : Word) (n : Nat) :
    ∃ m ts, s.lockedTurn a n = { s with mem := m, turns := ts } := by
  unfold State.lockedTurn
  split
  · exact ⟨s.mem, s.turns, rfl⟩
  · next ws rest h =>
    obtain ⟨m, hm⟩ := State.agentWrites_eq (ws.filter fun c =>
      s.startedMask != 0 || decide (n ≤ (BitVec.ofNat 32 c.1 - a).toNat)) { s with turns := rest }
    exact ⟨m, rest, hm⟩

/-- A turn does not look at the instruction pointer. -/
theorem State.turn_advance (s : State) (len : Word) : (s.advance len).turn = s.turn.advance len := by
  have key : ∀ (cs : List Host.Cell) (t : State),
      cs.foldl State.agentWrite (t.advance len) = (cs.foldl State.agentWrite t).advance len := by
    intro cs
    induction cs with
    | nil => exact fun t => rfl
    | cons c cs ih =>
      intro t
      have h : (t.advance len).agentWrite c = (t.agentWrite c).advance len := by
        unfold State.agentWrite
        dsimp only
        split <;> split <;> first | rfl | contradiction
      rw [List.foldl_cons, h, ih, List.foldl_cons]
  unfold State.turn
  rw [State.advance_turns]
  split
  · rfl
  · next ws rest h => exact key ws { s with turns := rest }

/-- With nothing due a turn changes nothing. -/
theorem State.turn_nil {s : State} (h : s.turns = []) : s.turn = s := by
  unfold State.turn
  rw [h]

theorem State.lockedTurn_nil {s : State} (h : s.turns = []) (a : Word) (n : Nat) :
    s.lockedTurn a n = s := by
  unfold State.lockedTurn
  rw [h]

/-- An access that is one request, or with nothing due, begins no second request. -/
theorem State.whole_turn {s : State} {a : Word} {n : Nat} (h : s.whole a n = true) (k : Nat) :
    (if startsRequest a n k then s.turn else s) = s := by
  simp only [State.whole, Bool.or_eq_true, beq_iff_eq, List.isEmpty_iff] at h
  rcases h with h | h
  · rw [if_neg]; simp [startsRequest, h]
  · rw [State.turn_nil h]; split <;> rfl

@[simp] theorem State.turn_locals (s : State) : s.turn.locals = s.locals := by
  obtain ⟨m, ts, h⟩ := s.turn_eq; rw [h]
@[simp] theorem State.turn_globals (s : State) : s.turn.globals = s.globals := by
  obtain ⟨m, ts, h⟩ := s.turn_eq; rw [h]
@[simp] theorem State.turn_ip (s : State) : s.turn.ip = s.ip := by
  obtain ⟨m, ts, h⟩ := s.turn_eq; rw [h]
@[simp] theorem State.turn_ac (s : State) : s.turn.ac = s.ac := by
  obtain ⟨m, ts, h⟩ := s.turn_eq; rw [h]
@[simp] theorem State.turn_pctl (s : State) : s.turn.pctl = s.pctl := by
  obtain ⟨m, ts, h⟩ := s.turn_eq; rw [h]
@[simp] theorem State.turn_tc (s : State) : s.turn.tc = s.tc := by
  obtain ⟨m, ts, h⟩ := s.turn_eq; rw [h]
@[simp] theorem State.turn_rcache (s : State) : s.turn.rcache = s.rcache := by
  obtain ⟨m, ts, h⟩ := s.turn_eq; rw [h]
@[simp] theorem State.turn_depth (s : State) : s.turn.depth = s.depth := by
  obtain ⟨m, ts, h⟩ := s.turn_eq; rw [h]
@[simp] theorem State.turn_tables (s : State) : s.turn.tables = s.tables := by
  obtain ⟨m, ts, h⟩ := s.turn_eq; rw [h]
@[simp] theorem State.turn_config (s : State) : s.turn.config = s.config := by
  obtain ⟨m, ts, h⟩ := s.turn_eq; rw [h]
@[simp] theorem State.turn_ctrl (s : State) : s.turn.ctrl = s.ctrl := by
  obtain ⟨m, ts, h⟩ := s.turn_eq; rw [h]
@[simp] theorem State.turn_intc (s : State) : s.turn.intc = s.intc := by
  obtain ⟨m, ts, h⟩ := s.turn_eq; rw [h]
@[simp] theorem State.turn_dma (s : State) : s.turn.dma = s.dma := by
  obtain ⟨m, ts, h⟩ := s.turn_eq; rw [h]
@[simp] theorem State.turn_icache (s : State) : s.turn.icache = s.icache := by
  obtain ⟨m, ts, h⟩ := s.turn_eq; rw [h]
@[simp] theorem State.turn_trace (s : State) : s.turn.trace = s.trace := by
  obtain ⟨m, ts, h⟩ := s.turn_eq; rw [h]
@[simp] theorem State.turn_draws (s : State) : s.turn.draws = s.draws := by
  obtain ⟨m, ts, h⟩ := s.turn_eq; rw [h]
@[simp] theorem State.turn_boot (s : State) : s.turn.boot = s.boot := by
  obtain ⟨m, ts, h⟩ := s.turn_eq; rw [h]

@[simp] theorem State.lockedTurn_locals (s : State) (a : Word) (n : Nat) :
    (s.lockedTurn a n).locals = s.locals := by
  obtain ⟨m, ts, h⟩ := s.lockedTurn_eq a n; rw [h]
@[simp] theorem State.lockedTurn_globals (s : State) (a : Word) (n : Nat) :
    (s.lockedTurn a n).globals = s.globals := by
  obtain ⟨m, ts, h⟩ := s.lockedTurn_eq a n; rw [h]
@[simp] theorem State.lockedTurn_ip (s : State) (a : Word) (n : Nat) :
    (s.lockedTurn a n).ip = s.ip := by
  obtain ⟨m, ts, h⟩ := s.lockedTurn_eq a n; rw [h]
@[simp] theorem State.lockedTurn_ac (s : State) (a : Word) (n : Nat) :
    (s.lockedTurn a n).ac = s.ac := by
  obtain ⟨m, ts, h⟩ := s.lockedTurn_eq a n; rw [h]
@[simp] theorem State.lockedTurn_pctl (s : State) (a : Word) (n : Nat) :
    (s.lockedTurn a n).pctl = s.pctl := by
  obtain ⟨m, ts, h⟩ := s.lockedTurn_eq a n; rw [h]
@[simp] theorem State.lockedTurn_tc (s : State) (a : Word) (n : Nat) :
    (s.lockedTurn a n).tc = s.tc := by
  obtain ⟨m, ts, h⟩ := s.lockedTurn_eq a n; rw [h]
@[simp] theorem State.lockedTurn_rcache (s : State) (a : Word) (n : Nat) :
    (s.lockedTurn a n).rcache = s.rcache := by
  obtain ⟨m, ts, h⟩ := s.lockedTurn_eq a n; rw [h]
@[simp] theorem State.lockedTurn_depth (s : State) (a : Word) (n : Nat) :
    (s.lockedTurn a n).depth = s.depth := by
  obtain ⟨m, ts, h⟩ := s.lockedTurn_eq a n; rw [h]
@[simp] theorem State.lockedTurn_tables (s : State) (a : Word) (n : Nat) :
    (s.lockedTurn a n).tables = s.tables := by
  obtain ⟨m, ts, h⟩ := s.lockedTurn_eq a n; rw [h]
@[simp] theorem State.lockedTurn_config (s : State) (a : Word) (n : Nat) :
    (s.lockedTurn a n).config = s.config := by
  obtain ⟨m, ts, h⟩ := s.lockedTurn_eq a n; rw [h]
@[simp] theorem State.lockedTurn_ctrl (s : State) (a : Word) (n : Nat) :
    (s.lockedTurn a n).ctrl = s.ctrl := by
  obtain ⟨m, ts, h⟩ := s.lockedTurn_eq a n; rw [h]
@[simp] theorem State.lockedTurn_intc (s : State) (a : Word) (n : Nat) :
    (s.lockedTurn a n).intc = s.intc := by
  obtain ⟨m, ts, h⟩ := s.lockedTurn_eq a n; rw [h]
@[simp] theorem State.lockedTurn_dma (s : State) (a : Word) (n : Nat) :
    (s.lockedTurn a n).dma = s.dma := by
  obtain ⟨m, ts, h⟩ := s.lockedTurn_eq a n; rw [h]
@[simp] theorem State.lockedTurn_icache (s : State) (a : Word) (n : Nat) :
    (s.lockedTurn a n).icache = s.icache := by
  obtain ⟨m, ts, h⟩ := s.lockedTurn_eq a n; rw [h]
@[simp] theorem State.lockedTurn_trace (s : State) (a : Word) (n : Nat) :
    (s.lockedTurn a n).trace = s.trace := by
  obtain ⟨m, ts, h⟩ := s.lockedTurn_eq a n; rw [h]
@[simp] theorem State.lockedTurn_draws (s : State) (a : Word) (n : Nat) :
    (s.lockedTurn a n).draws = s.draws := by
  obtain ⟨m, ts, h⟩ := s.lockedTurn_eq a n; rw [h]
@[simp] theorem State.lockedTurn_boot (s : State) (a : Word) (n : Nat) :
    (s.lockedTurn a n).boot = s.boot := by
  obtain ⟨m, ts, h⟩ := s.lockedTurn_eq a n; rw [h]

end Sys2Proof.Machine
end

