-- ==== Sys2Proof/Laws/Memory.lean ====
section
/-! SUPPORT. Laws of memory: a write is read back, leaves every other byte alone and keeps the
canonical form; what the wider reads and writes are made of. -/

namespace Sys2Proof.Machine

theorem Memory.wfAbove_mono {lo lo' : Nat} (h : lo ≤ lo') {m : Memory}
    (hm : Memory.wfAbove lo' m = true) : Memory.wfAbove lo m = true := by
  cases m with
  | nil => rfl
  | cons c m =>
    simp only [Memory.wfAbove, Bool.and_eq_true, decide_eq_true_eq] at hm ⊢
    exact ⟨⟨⟨by omega, hm.1.1.2⟩, hm.1.2⟩, hm.2⟩

/-- A byte below the bound of a list in canonical form is not listed. -/
theorem Memory.read_below {lo a : Nat} {m : Memory} (hm : Memory.wfAbove lo m = true)
    (ha : a < lo) : m.read a = unlistedByte := by
  induction m generalizing lo with
  | nil => rfl
  | cons c m ih =>
    simp only [Memory.wfAbove, Bool.and_eq_true, decide_eq_true_eq] at hm
    simp only [Memory.read]
    rw [if_neg (by omega)]
    exact ih hm.2 (by omega)

theorem Memory.write_wfAbove {lo a : Nat} {m : Memory} {v : Byte}
    (hm : Memory.wfAbove lo m = true) (hlo : lo ≤ a) (ha : a < 2 ^ 32) :
    Memory.wfAbove lo (m.write a v) = true := by
  induction m generalizing lo with
  | nil =>
    simp only [Memory.write]
    split <;> simp_all [Memory.wfAbove]
  | cons c m ih =>
    obtain ⟨k, b⟩ := c
    simp only [Memory.write]
    simp only [Memory.wfAbove, Bool.and_eq_true, decide_eq_true_eq] at hm
    obtain ⟨⟨⟨h1, h2⟩, h3⟩, h4⟩ := hm
    split_ifs with hak hv heq hv
    · simp only [Memory.wfAbove, Bool.and_eq_true, decide_eq_true_eq]
      exact ⟨⟨⟨h1, h2⟩, h3⟩, h4⟩
    · simp only [Memory.wfAbove, Bool.and_eq_true, decide_eq_true_eq]
      exact ⟨⟨⟨hlo, ha⟩, hv⟩, ⟨⟨by omega, h2⟩, h3⟩, h4⟩
    · exact Memory.wfAbove_mono (by omega) h4
    · simp only [Memory.wfAbove, Bool.and_eq_true, decide_eq_true_eq]
      subst heq
      exact ⟨⟨⟨h1, h2⟩, hv⟩, h4⟩
    · simp only [Memory.wfAbove, Bool.and_eq_true, decide_eq_true_eq]
      exact ⟨⟨⟨h1, h2⟩, h3⟩, ih h4 (by omega)⟩

/-- Writing a byte keeps the canonical form. -/
theorem Memory.write_wf {m : Memory} {a : Nat} {v : Byte} (hm : m.wf = true) (ha : a < 2 ^ 32) :
    (m.write a v).wf = true := Memory.write_wfAbove hm (Nat.zero_le a) ha

theorem Memory.read_write_above {lo : Nat} {m : Memory} (hm : Memory.wfAbove lo m = true)
    (a b : Nat) (v : Byte) : (m.write a v).read b = if a = b then v else m.read b := by
  induction m generalizing lo with
  | nil =>
    simp only [Memory.write]
    split_ifs <;> simp_all [Memory.read]
  | cons c m ih =>
    obtain ⟨k, x⟩ := c
    simp only [Memory.wfAbove, Bool.and_eq_true, decide_eq_true_eq] at hm
    obtain ⟨⟨⟨h1, h2⟩, h3⟩, h4⟩ := hm
    simp only [Memory.write]
    have hbelow : ∀ c, c ≤ k → Memory.read m c = unlistedByte := fun c hc =>
      Memory.read_below h4 (Nat.lt_succ_of_le hc)
    by_cases hak : a < k
    · rw [if_pos hak]
      by_cases hv : v = unlistedByte
      · rw [if_pos hv]
        by_cases hab : a = b
        · subst hab
          simp only [Memory.read]
          rw [if_neg (by omega), if_pos trivial, hbelow a (by omega), hv]
        · rw [if_neg hab]
      · rw [if_neg hv]
        by_cases hab : a = b <;> simp [Memory.read, hab]
    · rw [if_neg hak]
      by_cases heq : a = k
      · subst heq
        rw [if_pos rfl]
        by_cases hv : v = unlistedByte
        · rw [if_pos hv]
          by_cases hab : a = b
          · subst hab; rw [if_pos rfl, hbelow a (by omega), hv]
          · simp [Memory.read, hab]
        · rw [if_neg hv]
          by_cases hab : a = b <;> simp [Memory.read, hab]
      · rw [if_neg heq]
        simp only [Memory.read]
        by_cases hkb : k = b
        · rw [if_pos hkb, if_neg (by omega), if_pos hkb]
        · rw [if_neg hkb, if_neg hkb, ih h4]

/-- A byte written is read back, and every other byte reads as before. -/
theorem Memory.read_write {m : Memory} (hm : m.wf = true) (a b : Nat) (v : Byte) :
    (m.write a v).read b = if a = b then v else m.read b := Memory.read_write_above hm a b v

/-! On states. -/

theorem State.writeByte_wf {s : State} (h : s.mem.wf = true) (a : Word) (v : Byte) :
    (s.writeByte a v).mem.wf = true := Memory.write_wf h a.isLt

theorem State.writeBytes_wf {s : State} (h : s.mem.wf = true) (a : Word) (bs : List Byte) :
    (s.writeBytes a bs).mem.wf = true := by
  induction bs generalizing s a with
  | nil => exact h
  | cons b bs ih => exact ih (State.writeByte_wf h a b) (a + 1)

theorem State.writeHalf_wf {s : State} (h : s.mem.wf = true) (a : Word) (v : BitVec 16) :
    (s.writeHalf a v).mem.wf = true := State.writeBytes_wf h a _

theorem State.writeWord_wf {s : State} (h : s.mem.wf = true) (a v : Word) :
    (s.writeWord a v).mem.wf = true := State.writeBytes_wf h a _

theorem State.writeWords_wf {s : State} (h : s.mem.wf = true) (a : Word) (ws : List Word) :
    (s.writeWords a ws).mem.wf = true := by
  induction ws generalizing s a with
  | nil => exact h
  | cons w ws ih => exact ih (State.writeWord_wf h a w) (a + 4)

/-- The memory right after reset is in canonical form. -/
theorem State.reset_mem_wf : State.reset.mem.wf = true := rfl

theorem State.readByte_writeByte {s : State} (h : s.mem.wf = true) (a b : Word) (v : Byte) :
    (s.writeByte a v).readByte b = if a = b then v else s.readByte b := by
  simp only [State.readByte, State.writeByte_mem, Memory.read_write h]
  by_cases hab : a = b
  · simp [hab]
  · rw [if_neg hab, if_neg fun h => hab (BitVec.eq_of_toNat_eq h)]

@[simp] theorem State.bigEndian_writeByte (s : State) (a b : Word) (v : Byte) :
    (s.writeByte a v).bigEndian b = s.bigEndian b := rfl

@[simp] theorem State.bigEndian_writeWord (s : State) (a b v : Word) :
    (s.writeWord a v).bigEndian b = s.bigEndian b := by
  simp [State.bigEndian, State.regionEntry]

/-- A word as its four bytes in the byte order of the region. -/
theorem State.readWord_eq (s : State) (a : Word) :
    s.readWord a = wordOfMem (s.bigEndian a) (s.readByte a) (s.readByte (a + 1))
      (s.readByte (a + 2)) (s.readByte (a + 3)) := rfl

/-! The turns of other agents, and the bus requests of an access (`20_memory.md` R109, R122 to R124). -/

theorem State.agentWrite_wf {s : State} (h : s.mem.wf = true) (c : Host.Cell) :
    (s.agentWrite c).mem.wf = true := by
  unfold State.agentWrite
  dsimp only
  split
  · exact h
  · exact State.writeByte_wf h _ _

theorem State.agentWrites_wf (cs : List Host.Cell) {s : State} (h : s.mem.wf = true) :
    (cs.foldl State.agentWrite s).mem.wf = true := by
  induction cs generalizing s with
  | nil => exact h
  | cons c cs ih => exact ih (State.agentWrite_wf h c)

theorem State.turn_wf {s : State} (h : s.mem.wf = true) : s.turn.mem.wf = true := by
  unfold State.turn
  split
  · exact h
  · exact State.agentWrites_wf _ h

theorem State.lockedTurn_wf {s : State} (h : s.mem.wf = true) (a : Word) (n : Nat) :
    (s.lockedTurn a n).mem.wf = true := by
  unfold State.lockedTurn
  split
  · exact h
  · exact State.agentWrites_wf _ h

/-- Writes of other agents leave a byte that none of them names. -/
theorem State.agentWrites_readByte (cs : List Host.Cell) {s : State} (h : s.mem.wf = true) (x : Word)
    (hx : ∀ c ∈ cs, BitVec.ofNat 32 c.1 ≠ x) :
    (cs.foldl State.agentWrite s).readByte x = s.readByte x := by
  induction cs generalizing s with
  | nil => rfl
  | cons c cs ih =>
    rw [List.foldl_cons, ih (State.agentWrite_wf h c) fun d hd => hx d (List.mem_cons_of_mem _ hd)]
    unfold State.agentWrite
    dsimp only
    split
    · rfl
    · rw [State.readByte_writeByte h, if_neg (hx c List.mem_cons_self)]

/-- While LOCK is asserted and no DMA channel is started, the locked bytes stay as they are. -/
theorem State.lockedTurn_readByte {s : State} (h : s.mem.wf = true) (hd : s.startedMask = 0)
    (a x : Word) (n : Nat) (hx : (x - a).toNat < n) :
    (s.lockedTurn a n).readByte x = s.readByte x := by
  unfold State.lockedTurn
  split
  · rfl
  · rw [State.agentWrites_readByte]
    · rfl
    · exact h
    · rintro c hc rfl
      simp only [List.mem_filter, hd, bne_self_eq_false, Bool.false_or, decide_eq_true_eq] at hc
      omega

/-- While an interrupt is posted and no DMA channel is started, the interrupt table and the aligned
16-byte block of its first word stay as they are. -/
theorem State.tableTurn_readByte {s : State} (h : s.mem.wf = true) (hd : s.startedMask = 0) (x : Word)
    (hx : (x - s.tables.intTableBase).toNat < 1028 ∨
      (x - (s.tables.intTableBase &&& 0xFFFFFFF0)).toNat < 16) :
    s.tableTurn.readByte x = s.readByte x := by
  apply State.lockedTurn_readByte h hd
  generalize s.tables.intTableBase = b at hx ⊢
  have hb : (b &&& 0xFFFFFFF0).toNat = b.toNat - b.toNat % 16 := by
    have e : b &&& (0xFFFFFFF0 : Word) = (b >>> 4) <<< 4 := by
      ext i hi
      change (b &&& 0xFFFFFFF0#32)[i] = _
      simp only [BitVec.getElem_and, BitVec.getElem_shiftLeft, BitVec.getElem_ushiftRight]
      interval_cases i <;> simp
    rw [e, BitVec.toNat_shiftLeft, BitVec.toNat_ushiftRight, Nat.shiftRight_eq_div_pow,
      Nat.shiftLeft_eq]
    have := b.isLt
    omega
  have h1 := b.isLt
  have h2 := x.isLt
  rw [BitVec.toNat_sub] at hx ⊢
  rw [BitVec.toNat_sub, hb] at hx
  rw [hb]
  omega

/-- The bytes from an address on. -/
def State.readBytes (s : State) (a : Word) : Nat → List Byte
  | 0 => []
  | n + 1 => s.readByte a :: s.readBytes (a + 1) n

/-- An access in one request reads the bytes as they are, and changes nothing. -/
theorem State.readRequests_whole {s : State} {a : Word} {n : Nat} (h : s.whole a n = true)
    (k j : Nat) : s.readRequests a n k j = (s.readBytes (a + BitVec.ofNat 32 k) j, s) := by
  induction j generalizing k with
  | zero => rfl
  | succ j ih =>
    simp only [State.readRequests, State.whole_turn h, ih (k + 1), State.readBytes]
    rw [BitVec.ofNat_add, ← BitVec.add_assoc]
    rfl

/-- Reading does not look at the instruction pointer. -/
theorem State.readRequests_advance (s : State) (len a : Word) (n k j : Nat) :
    (s.advance len).readRequests a n k j =
      ((s.readRequests a n k j).1, (s.readRequests a n k j).2.advance len) := by
  induction j generalizing s k with
  | zero => rfl
  | succ j ih =>
    simp only [State.readRequests]
    split
    · rw [State.turn_advance, ih]; rfl
    · rw [ih]; rfl

/-- An access in one request writes the bytes as they are. -/
theorem State.writeRequests_whole {s : State} {a : Word} {n : Nat} (h : s.whole a n = true)
    (k : Nat) (bs : List Byte) :
    s.writeRequests a n k bs = s.writeBytes (a + BitVec.ofNat 32 k) bs := by
  induction bs generalizing s k with
  | nil => rfl
  | cons b bs ih =>
    simp only [State.writeRequests, State.whole_turn h, State.writeBytes]
    have h' : (s.writeByte (a + BitVec.ofNat 32 k) b).whole a n = true := h
    rw [ih h' (k + 1), BitVec.ofNat_add, ← BitVec.add_assoc]
    rfl

/-- The bytes of words are the words. -/
theorem State.wordsOf_readBytes (s : State) (a : Word) (w : Nat) :
    s.wordsOf a (s.readBytes a (4 * w)) = s.readWords a w := by
  induction w generalizing a with
  | zero => rfl
  | succ w ih =>
    rw [show 4 * (w + 1) = 4 * w + 1 + 1 + 1 + 1 from by omega]
    have h4 : a + 1 + 1 + 1 + 1 = a + 4 := by simp only [BitVec.add_assoc]; rfl
    have h3 : a + 1 + 1 + 1 = a + 3 := by simp only [BitVec.add_assoc]; rfl
    have h2 : a + 1 + 1 = a + 2 := by simp only [BitVec.add_assoc]; rfl
    simp only [State.readBytes, State.wordsOf, State.readWords]
    rw [h4, h3, h2, ih]
    rfl

theorem State.writeBytes_append (s : State) (a : Word) (bs cs : List Byte) :
    s.writeBytes a (bs ++ cs) = (s.writeBytes a bs).writeBytes (a + BitVec.ofNat 32 bs.length) cs := by
  induction bs generalizing s a with
  | nil => simp [State.writeBytes]
  | cons b bs ih =>
    simp only [List.cons_append, State.writeBytes, ih, List.length_cons]
    rw [Nat.add_comm, BitVec.ofNat_add, ← BitVec.add_assoc]
    rfl

theorem State.bigEndian_congr {s t : State} (h : t.ctrl = s.ctrl) (a : Word) :
    t.bigEndian a = s.bigEndian a := by simp only [State.bigEndian, State.regionEntry, h]

theorem State.bytesOf_congr {s t : State} (h : t.ctrl = s.ctrl) (a : Word) (ws : List Word) :
    t.bytesOf a ws = s.bytesOf a ws := by
  induction ws generalizing a with
  | nil => rfl
  | cons w ws ih => simp only [State.bytesOf, ih, State.bigEndian_congr h]

/-- Writing the bytes of words is writing the words. -/
theorem State.writeBytes_bytesOf (s : State) (a : Word) (ws : List Word) :
    s.writeBytes a (s.bytesOf a ws) = s.writeWords a ws := by
  induction ws generalizing s a with
  | nil => rfl
  | cons w ws ih =>
    have hl : (bytesOfWord (s.bigEndian a) w).length = 4 := by unfold bytesOfWord; split <;> rfl
    rw [State.bytesOf, State.writeBytes_append, hl, State.writeWords]
    have hc : (s.writeBytes a (bytesOfWord (s.bigEndian a) w)).ctrl = s.ctrl := by simp
    rw [← State.bytesOf_congr hc]
    exact ih _ _

/-- Reading requests changes memory and the turns left. -/
theorem State.readRequests_eq (s : State) (a : Word) (n k j : Nat) :
    ∃ m ts, (s.readRequests a n k j).2 = { s with mem := m, turns := ts } ∧
      (s.mem.wf = true → m.wf = true) := by
  induction j generalizing s k with
  | zero => exact ⟨s.mem, s.turns, rfl, id⟩
  | succ j ih =>
    simp only [State.readRequests]
    split
    · obtain ⟨m, ts, h, hw⟩ := ih s.turn (k + 1)
      obtain ⟨m', ts', h'⟩ := s.turn_eq
      exact ⟨m, ts, by rw [h, h'], fun hs => hw (State.turn_wf hs)⟩
    · exact ih s (k + 1)

/-- Writing requests changes memory and the turns left. -/
theorem State.writeRequests_eq (s : State) (a : Word) (n k : Nat) (bs : List Byte) :
    ∃ m ts, s.writeRequests a n k bs = { s with mem := m, turns := ts } ∧
      (s.mem.wf = true → m.wf = true) := by
  induction bs generalizing s k with
  | nil => exact ⟨s.mem, s.turns, rfl, id⟩
  | cons b bs ih =>
    simp only [State.writeRequests]
    split
    · obtain ⟨m, ts, h, hw⟩ := ih (s.turn.writeByte (a + BitVec.ofNat 32 k) b) (k + 1)
      obtain ⟨m', ts', h'⟩ := s.turn_eq
      exact ⟨m, ts, by rw [h, h']; rfl, fun hs => hw (State.writeByte_wf (State.turn_wf hs) _ _)⟩
    · obtain ⟨m, ts, h, hw⟩ := ih (s.writeByte (a + BitVec.ofNat 32 k) b) (k + 1)
      exact ⟨m, ts, by rw [h]; rfl, fun hs => hw (State.writeByte_wf hs _ _)⟩

theorem State.writeWords_turns_nil {s : State} (h : s.turns = []) (a : Word) (ws : List Word) :
    (s.writeWords a ws).turns = [] := by simp [h]

/-- Quad-word requests with nothing due write the words. -/
theorem State.writeQuads_nil {s : State} (h : s.turns = []) (a : Word) (ws : List Word) :
    s.writeQuads a ws = s.writeWords a ws := by
  induction s, a, ws using State.writeQuads.induct with
  | case1 s a w0 w1 w2 w3 ws ih =>
    rw [State.turn_nil h] at ih
    rw [State.writeQuads, State.turn_nil h, ih (by simp [h])]
    have h16 : a + 4 + 4 + 4 + 4 = a + 16 := by simp only [BitVec.add_assoc]; rfl
    simp only [State.writeWords, h16]
  | case2 s a ws hne =>
    unfold State.writeQuads
    split
    · next w0 w1 w2 w3 ws => exact absurd rfl (hne w0 w1 w2 w3 ws)
    · rfl

/-- Quad-word requests change memory and the turns left. -/
theorem State.writeQuads_eq (s : State) (a : Word) (ws : List Word) :
    ∃ m ts, s.writeQuads a ws = { s with mem := m, turns := ts } ∧ (s.mem.wf = true → m.wf = true) := by
  induction s, a, ws using State.writeQuads.induct with
  | case1 s a w0 w1 w2 w3 ws ih =>
    obtain ⟨m, ts, h, hw⟩ := ih
    obtain ⟨m1, h1⟩ := s.turn.writeWords_eq a [w0, w1, w2, w3]
    obtain ⟨m2, ts2, h2⟩ := s.turn_eq
    refine ⟨m, ts, ?_, fun hs => hw (State.writeWords_wf (State.turn_wf hs) _ _)⟩
    rw [State.writeQuads, h, h1, h2]
  | case2 s a ws hne =>
    have h0 : s.writeQuads a ws = s.writeWords a ws := by
      unfold State.writeQuads
      split
      · next w0 w1 w2 w3 ws => exact absurd rfl (hne w0 w1 w2 w3 ws)
      · rfl
    obtain ⟨m, h⟩ := s.writeWords_eq a ws
    refine ⟨m, s.turns, by rw [h0, h], fun hs => ?_⟩
    have := State.writeWords_wf hs a ws
    rwa [h] at this

/-- Quad-word reads with nothing due read the words and change nothing. -/
theorem State.readQuads_nil {s : State} (h : s.turns = []) (a : Word) (q : Nat) :
    s.readQuads a q = (s.readWords a (4 * q), s) := by
  induction q generalizing a with
  | zero => rfl
  | succ q ih =>
    have h16 : a + 4 + 4 + 4 + 4 = a + 16 := by simp only [BitVec.add_assoc]; rfl
    simp only [State.readQuads, State.turn_nil h, ih]
    rw [show 4 * (q + 1) = 4 * q + 1 + 1 + 1 + 1 from by omega]
    simp only [State.readWords, h16, List.cons_append, List.nil_append]

/-- Quad-word reads change memory and the turns left. -/
theorem State.readQuads_eq (s : State) (a : Word) (q : Nat) :
    ∃ m ts, (s.readQuads a q).2 = { s with mem := m, turns := ts } ∧
      (s.mem.wf = true → m.wf = true) := by
  induction q generalizing s a with
  | zero => exact ⟨s.mem, s.turns, rfl, id⟩
  | succ q ih =>
    obtain ⟨m, ts, h, hw⟩ := ih s.turn (a + 16)
    obtain ⟨m2, ts2, h2⟩ := s.turn_eq
    exact ⟨m, ts, by simp only [State.readQuads]; rw [h, h2], fun hs => hw (State.turn_wf hs)⟩

theorem State.readQuads_length (s : State) (a : Word) (q : Nat) :
    (s.readQuads a q).1.length = 4 * q := by
  induction q generalizing s a with
  | zero => rfl
  | succ q ih =>
    simp only [State.readQuads, List.length_append, ih, State.readWords, List.length_cons,
      List.length_nil]
    omega

/-- Reloading a set with nothing due reads it and changes nothing. -/
theorem State.reloadSet_nil {s : State} (h : s.turns = []) (a : Word) :
    s.reloadSet a = (s.readSet a, s) := by
  simp only [State.reloadSet, State.turn_nil h, State.readSet]

/-- After a set is reloaded other agents have had four turns. -/
theorem State.reloadSet_snd (s : State) (a : Word) : (s.reloadSet a).2 = s.turn.turn.turn.turn := rfl

/-- Two changes of memory and the turns left are one. -/
theorem State.turn_turn_eq {s t : State} (h : ∃ m ts, t = { s with mem := m, turns := ts }) :
    ∃ m ts, t.turn = { s with mem := m, turns := ts } := by
  obtain ⟨m, ts, h⟩ := h
  obtain ⟨m', ts', h'⟩ := t.turn_eq
  exact ⟨m', ts', by rw [h', h]⟩

/-- Reloading a set changes memory and the turns left. -/
theorem State.reloadSet_eq (s : State) (a : Word) :
    ∃ m ts, (s.reloadSet a).2 = { s with mem := m, turns := ts } ∧ (s.mem.wf = true → m.wf = true) := by
  obtain ⟨m, ts, h⟩ := State.turn_turn_eq (State.turn_turn_eq (State.turn_turn_eq s.turn_eq))
  refine ⟨m, ts, by rw [State.reloadSet_snd, h], fun hs => ?_⟩
  have := State.turn_wf (State.turn_wf (State.turn_wf (State.turn_wf hs)))
  rwa [h] at this

end Sys2Proof.Machine
end

