-- ==== Sys2Proof/Laws/Run.lean ====
section
/-! SUPPORT. One lemma per shared operation of `Machine/Ops.lean`: what it answers and under which
conditions. Provers cite these instead of unfolding the operations. -/

namespace Sys2Proof.Machine

/-! Operand checks. -/

/-- The operand checks pass exactly when every operand can be used. -/
theorem State.operandFault_eq_none (s : State) (us : List Use) :
    s.operandFault us = none ↔ s.canUseAll us = true := by
  have key : ∀ u : Use, s.canUse u = true ↔ ¬(!s.em && u.isSfr) = true ∧ ¬u.invalid = true := by
    rintro ⟨o, w, al⟩
    cases o <;> cases hem : s.em <;>
      simp [State.canUse, Use.isSfr, Use.invalid, hem]
  have hany : ∀ vs : List Use, s.canUseAll vs = true ↔
      ¬(!s.em && vs.any Use.isSfr) = true ∧ ¬vs.any Use.invalid = true := by
    intro vs
    induction vs with
    | nil => simp [State.canUseAll]
    | cons v vs ih =>
      simp only [State.canUseAll, List.all_cons, Bool.and_eq_true, List.any_cons,
        Bool.or_eq_true, not_or, not_and] at ih ⊢
      rw [ih, key v]
      simp only [Bool.and_eq_true, not_and]
      tauto
  rw [hany, State.operandFault]
  split_ifs with h1 h2
  · simp [h1]
  · simp [h2]
  · exact iff_of_true rfl ⟨h1, h2⟩

/-- Where an operand check fails the fault is one of two (`61_faults.md` R531 steps 5 and 6). -/
theorem State.operandFault_some {s : State} {us : List Use} {c : FaultCode}
    (h : s.operandFault us = some c) :
    (c = .typeMismatch ∧ s.em = false ∧ us.any Use.isSfr = true) ∨
      (c = .invalidOperand ∧ us.any Use.invalid = true) := by
  unfold State.operandFault at h
  split_ifs at h with h1 h2
  · simp only [Bool.and_eq_true, Bool.not_eq_true'] at h1
    exact .inl ⟨(Option.some.inj h).symm, h1⟩
  · exact .inr ⟨(Option.some.inj h).symm, h2⟩

/-! Tracing off. -/

theorem State.untraced_iff (s : State) :
    s.untraced = true ↔
      s.tc &&& 0xFE = 0 ∧ s.trace.tcDelay.left = 0 ∧ s.trace.teDelay.left = 0 := by
  simp [State.untraced, and_assoc]

/-- A mode bit of TC that is off because no mode bit is on. -/
theorem mode_bit_off {w : Word} (h : w &&& 0xFE = 0) {k : Nat} (hk : (0xFE#32).getLsbD k = true) :
    w.getLsbD k = false := by
  have := congrArg (fun v : Word => v.getLsbD k) h
  simpa [hk] using this

theorem eventGate_of_no_mode {w : Word} (h : w &&& 0xFE = 0) : eventGate w = 0x0F800000 := by
  have h' : w &&& 0x7E = 0 := by
    have : w &&& 0x7E = (w &&& 0xFE) &&& 0x7E := by rw [BitVec.and_assoc]; rfl
    rw [this, h]; rfl
  rw [eventGate, h']; rfl

@[simp] theorem State.signal_zero (s : State) (te : Bool) (a : Word) : s.signal 0 te a = s := rfl

/-- The state at the start of an instruction, with tracing off: nothing is noted. -/
theorem State.begin_untraced {s : State} (h : s.untraced = true) (len : Word) :
    s.begin len =
      { s := s.advance len, modes := s.tc, te := s.te, noted := 0, post := none, late := none } := by
  obtain ⟨h1, h2, h3⟩ := s.untraced_iff.1 h
  have h7 : s.tc.getLsbD 7 = false := mode_bit_off h1 (by decide)
  have hm : s.effectiveModes s.tc = s.tc := by simp [State.effectiveModes, h2]
  have he : s.effectiveTe s.te = s.te := by simp [State.effectiveTe, h3]
  have ha : s.ageWindows = s := by rw [State.ageWindows, if_pos ⟨h2, h3⟩]
  have hf : s.fetchBreak s.tc = 0 := by rw [State.fetchBreak, h7]; rfl
  have hd : s.dataBreak s.tc s.ip len.toNat .fetch = 0 := by rw [State.dataBreak, h7]; rfl
  rw [State.begin, hm, he, ha, hf, hd]
  rfl

/-- An instruction that ends with nothing to signal and no fault gives the state it has reached. -/
theorem Run.finish_quiet {r : Run} {s0 : State} (hp : r.post = none) (hl : r.late = none)
    (he : r.events = 0) : r.finish s0 = .next r.s := by
  simp only [Run.finish, hp, Run.signalled, he, hl, State.signal_zero]

/-- The events of an instruction with no mode bit set: only breakpoint flags can pass. -/
theorem Run.events_of_no_mode {r : Run} (hm : r.modes &&& 0xFE = 0)
    (hn : r.noted &&& 0x0F800000 = 0) : r.events = 0 := by
  have h : evInstruction &&& 0x0F800000 = 0 := by decide
  rw [Run.events, eventGate_of_no_mode hm]
  have : (r.noted ||| evInstruction) &&& 0x0F800000 =
      (r.noted &&& 0x0F800000) ||| (evInstruction &&& 0x0F800000) := by
    ext i; simp [Bool.and_or_distrib_right]
  rw [this, hn, h]; rfl

/-- With tracing off, an instruction whose body ends well is done. -/
theorem runInstr_untraced {s : State} (h : s.untraced = true) {len : Word}
    {body : Run → Except Stop Run} {r : Run}
    (hb : body { s := s.advance len, modes := s.tc, te := s.te, noted := 0, post := none,
                 late := none } = .ok r)
    (hm : r.modes &&& 0xFE = 0) (hn : r.noted &&& 0x0F800000 = 0) (hp : r.post = none)
    (hl : r.late = none) : runInstr s len body = .next r.s := by
  simp only [runInstr, State.begin_untraced h, hb]
  exact Run.finish_quiet hp hl (Run.events_of_no_mode hm hn)

theorem runChecked_of_canUse {s : State} {len : Word} {us : List Use}
    (h : s.canUseAll us = true) (body : Run → Except Stop Run) :
    runChecked s len us body = runInstr s len body := by
  simp [runChecked, (s.operandFault_eq_none us).2 h]

/-- Everything an instruction can answer with a next state (`61_faults.md` R531). -/
theorem runInstr_next {s t : State} {len : Word} {body : Run → Except Stop Run}
    (h : runInstr s len body = .next t) :
    (∃ r, body (s.begin len) = .ok r ∧ r.post = none ∧ t = r.signalled s) ∨
    (∃ r c, body (s.begin len) = .ok r ∧ r.post = some c ∧
      takeFault s (r.signalled s) c r.s.ip = .next t) ∨
    (∃ c, body (s.begin len) = .error (.trap c) ∧ takeFault s s c (s.ip + len) = .next t) := by
  unfold runInstr at h
  split at h
  · next r hr =>
    unfold Run.finish at h
    split at h
    · next hp => exact .inl ⟨r, hr, hp, by injection h with h; exact h.symm⟩
    · next c hp => exact .inr (.inl ⟨r, c, hr, hp, h⟩)
  · next c hc => exact .inr (.inr ⟨c, hc, h⟩)
  · cases h
  · cases h

/-- Everything a checked instruction can answer with a next state. -/
theorem runChecked_next {s t : State} {len : Word} {us : List Use}
    {body : Run → Except Stop Run} (h : runChecked s len us body = .next t) :
    (∃ c, s.operandFault us = some c ∧ takeEarlyFault s c (s.ip + len) = .next t) ∨
    (s.operandFault us = none ∧ runInstr s len body = .next t) := by
  unfold runChecked at h
  split at h
  · next c hc => exact .inl ⟨c, hc, h⟩
  · next hn => exact .inr ⟨hn, h⟩

/-- Taking a fault gives a next state exactly when the fault entry does. -/
theorem takeFault_next {s0 s t : State} {c : FaultCode} {next : Word}
    (h : takeFault s0 s c next = .next t) :
    ∃ d rip, { s with draws := d }.enterFault c s0.ip rip = .ok t := by
  simp only [takeFault, faultOutcome] at h
  split at h
  · next u hu =>
    injection h with h; subst h
    exact ⟨_, _, hu⟩
  · cases h

/-- The entry of a fault found before the instruction executes starts from the state without turns. -/
theorem takeEarlyFault_next {s t : State} {c : FaultCode} {next : Word}
    (h : takeEarlyFault s c next = .next t) :
    ∃ d rip, { s with turns := [], draws := d }.enterFault c s.ip rip = .ok t :=
  takeFault_next h

/-- With the windows of R622 closed `ret` runs like any instruction. -/
theorem State.runReturn_eq {s : State} (h1 : s.trace.tcDelay.left = 0)
    (h2 : s.trace.teDelay.left = 0) : s.runReturn = runInstr s 4 Run.returnAction := by
  have ha : s.ageWindows = s := by rw [State.ageWindows, if_pos ⟨h1, h2⟩]
  have hb : (s.begin 4).s.pfp = s.pfp := by rw [State.begin, ha]; rfl
  unfold State.runReturn
  split_ifs with h
  · simp only [State.reservedReturn, Bool.or_eq_true, beq_iff_eq] at h
    rw [ha, runInstr, Run.returnAction, hb]
    rcases h with (h | h) | h <;> rw [h] <;> rfl
  · rfl

/-- Where no other agent has a turn left, a fault found early is taken like any other. -/
theorem takeEarlyFault_of_turns {s : State} (h : s.turns = []) (c : FaultCode) (next : Word) :
    takeEarlyFault s c next = takeFault s s c next := by
  have : { s with turns := [] } = s := by rw [← h]
  rw [takeEarlyFault, this]

/-! Accesses. -/

/-- An access that neither faults nor stops only notes breakpoint flags (`20_memory.md` R100). -/
theorem Run.access_ok {r : Run} {a : Word} {n : Nat} {k : AccessKind}
    (h : r.s.canAccess a n = true)
    (hp : k = .store → r.s.em = true ∨ r.s.protectedRange a n = false) :
    r.access a n k = .ok (r.note (r.s.dataBreak r.modes a n k)) := by
  unfold State.canAccess at h
  by_cases hm : a.toNat % naturalBoundary n = 0
  · unfold Run.access
    rw [if_neg (by simp [hm]), if_neg (by simp [hm]), if_neg]
    rintro ⟨h1, h2, h3⟩
    rcases hp h1 with h4 | h4 <;> simp_all
  · simp only [beq_iff_eq, hm, Bool.or_eq_true, Bool.and_eq_true,
      Bool.not_eq_true', false_or] at h
    unfold Run.access
    rw [if_neg (by simp [h.1]), if_neg (by simp [h.2]), if_neg]
    rintro ⟨h1, h2, h3⟩
    rcases hp h1 with h4 | h4 <;> simp_all

/-- Everything an access can do. -/
theorem Run.access_cases {r r' : Run} {a : Word} {n : Nat} {k : AccessKind}
    (h : r.access a n k = .ok r') :
    r' = r.note (r.s.dataBreak r.modes a n k) ∧
      (k = .store → r.s.em = false → r.s.protectedRange a n = false) := by
  unfold Run.access at h
  split_ifs at h with h1 h2 h3
  injection h with h
  refine ⟨h.symm, fun hk he => ?_⟩
  simp only [hk, he, true_and] at h3
  simpa using h3

@[simp] theorem Run.note_s (r : Run) (w : Word) : (r.note w).s = r.s := rfl
@[simp] theorem Run.note_modes (r : Run) (w : Word) : (r.note w).modes = r.modes := rfl
@[simp] theorem Run.note_te (r : Run) (w : Word) : (r.note w).te = r.te := rfl
@[simp] theorem Run.note_post (r : Run) (w : Word) : (r.note w).post = r.post := rfl
@[simp] theorem Run.note_late (r : Run) (w : Word) : (r.note w).late = r.late := rfl
@[simp] theorem Run.note_noted (r : Run) (w : Word) : (r.note w).noted = r.noted ||| w := rfl
@[simp] theorem Run.modify_s (r : Run) (f : State → State) : (r.modify f).s = f r.s := rfl
@[simp] theorem Run.modify_modes (r : Run) (f : State → State) : (r.modify f).modes = r.modes := rfl
@[simp] theorem Run.modify_te (r : Run) (f : State → State) : (r.modify f).te = r.te := rfl
@[simp] theorem Run.modify_post (r : Run) (f : State → State) : (r.modify f).post = r.post := rfl
@[simp] theorem Run.modify_late (r : Run) (f : State → State) : (r.modify f).late = r.late := rfl
@[simp] theorem Run.modify_noted (r : Run) (f : State → State) : (r.modify f).noted = r.noted := rfl
@[simp] theorem Run.put_s (r : Run) (o : Operand) (k : Nat) (v : Word) :
    (r.put o k v).s = r.s.putValue o k v := rfl
@[simp] theorem Run.setCc_s (r : Run) (c : BitVec 3) : (r.setCc c).s = r.s.setCc c := rfl

/-- Putting a list of words is putting them into the state. -/
theorem Run.putAll_eq (r : Run) (o : Operand) (k : Nat) (ws : List Word) :
    r.putAll o k ws = { r with s := r.s.putWords o k ws } := by
  induction ws generalizing r k with
  | nil => rfl
  | cons w ws ih => simp [Run.putAll, ih, State.putWords, Run.put, Run.modify]

/-- No breakpoint flag with the breakpoint mode off. -/
theorem State.dataBreak_off (s : State) {modes : Word} (h : modes &&& 0xFE = 0) (a : Word) (n : Nat)
    (k : AccessKind) : s.dataBreak modes a n k = 0 := by
  rw [State.dataBreak, mode_bit_off h (k := 7) (by decide)]; rfl

end Sys2Proof.Machine
end

