-- ==== Sys2Proof/Laws/Frames.lean ====
section
/-! SUPPORT. What the register cache, a call action and the entries of faults and interrupts can do: one
lemma for each. Provers cite these instead of unfolding the operations. -/

namespace Sys2Proof.Machine

/-! General registers. -/

theorem State.getReg_setReg (s : State) (n m : RegNum) (v : Word) :
    (s.setReg n v).getReg m = if m = n then v else s.getReg m := by
  by_cases hmn : m = n
  · subst hmn
    unfold State.getReg State.setReg
    split_ifs <;> simp
  · rw [if_neg hmn]
    have hne : m.toNat ≠ n.toNat := fun h => hmn (BitVec.eq_of_toNat_eq h)
    unfold State.getReg State.setReg
    split_ifs with h1 h2
    · simp only []
      exact Vector.getElem_set_ne _ _ (Ne.symm hne)
    · rfl
    · rfl
    · simp only []
      exact Vector.getElem_set_ne _ _ (by omega)

/-! The register cache (`44_call_return.md` R402). -/

/-- Writing sets to data RAM changes memory only. -/
theorem State.writeSlots_eq (cs : List SavedSet) (s : State) (k : Nat) :
    ∃ m, s.writeSlots k cs = { s with mem := m } ∧ (s.mem.wf = true → m.wf = true) := by
  induction cs generalizing s k with
  | nil => exact ⟨s.mem, rfl, id⟩
  | cons c cs ih =>
    simp only [State.writeSlots]
    split_ifs with hk
    · exact ih s (k + 1)
    · obtain ⟨m, hm, hw⟩ := ih (s.writeWords (ramSlot k) c.words.toList) (k + 1)
      obtain ⟨m', h'⟩ := s.writeWords_eq (ramSlot k) c.words.toList
      exact ⟨m, by rw [hm, h'], fun h => hw (State.writeWords_wf h _ _)⟩

/-- Making sets the cached ones. -/
theorem State.storeSets_eq (s : State) (cs : List SavedSet) :
    ∃ m, s.storeSets cs = { s with mem := m, rcache := cs } ∧ (s.mem.wf = true → m.wf = true) := by
  obtain ⟨m, hm, hw⟩ := State.writeSlots_eq cs s 0
  exact ⟨m, by rw [State.storeSets, hm], hw⟩

/-- With at most five sets nothing is kept in data RAM. -/
theorem State.writeSlots_few (cs : List SavedSet) (s : State) (k : Nat) (h : k + cs.length ≤ 5) :
    s.writeSlots k cs = s := by
  induction cs generalizing k with
  | nil => rfl
  | cons c cs ih =>
    simp only [List.length_cons] at h
    rw [State.writeSlots, if_pos (by omega)]
    exact ih (k + 1) (by omega)

@[simp] theorem State.cachedSets_length (s : State) : s.cachedSets.length = s.rcache.length := by
  simp [State.cachedSets]

/-- With at most five sets the cached sets are those on chip. -/
theorem State.cachedSets_few {s : State} (h : s.rcache.length ≤ 5) : s.cachedSets = s.rcache := by
  apply List.ext_getElem
  · simp
  · intro i h1 h2
    simp only [State.cachedSets, List.getElem_map, List.getElem_zipIdx]
    rw [if_pos (by omega)]

/-- Saving the current set: memory, the turns left and the cache change, the set is the newest one, the
cache grows by at most one set and not beyond its size. -/
theorem State.saveLocals_eq (s : State) (f : Word) :
    ∃ m r ts, s.saveLocals f = { s with mem := m, rcache := r, turns := ts } ∧
      (s.mem.wf = true → m.wf = true) ∧ r.getLast? = some ⟨f, s.locals⟩ ∧
      (1 ≤ s.config.regcacheSets → s.rcache.length ≤ s.config.regcacheSets →
        r.length ≤ s.config.regcacheSets) := by
  unfold State.saveLocals
  split_ifs with hfull
  · split
    · next hc =>
      obtain ⟨m, hm, hw⟩ := s.storeSets_eq [⟨f, s.locals⟩]
      exact ⟨m, _, s.turns, hm, hw, rfl, fun h _ => h⟩
    · next old rest hc =>
      obtain ⟨m, hm, hw⟩ :=
        (s.writeQuads old.frame old.words.toList).storeSets_eq (rest ++ [⟨f, s.locals⟩])
      obtain ⟨m', ts, h', hw'⟩ := s.writeQuads_eq old.frame old.words.toList
      rw [h'] at hw
      refine ⟨m, rest ++ [⟨f, s.locals⟩], ts, ?_, fun h => hw (hw' h), ?_, fun _ h => ?_⟩
      · rw [hm, h']
      · exact List.getLast?_concat
      · have := congrArg List.length hc
        simp only [State.cachedSets_length, List.length_cons] at this
        simp only [List.length_append, List.length_cons, List.length_nil]
        omega
  · obtain ⟨m, hm, hw⟩ := s.storeSets_eq (s.cachedSets ++ [⟨f, s.locals⟩])
    refine ⟨m, s.cachedSets ++ [⟨f, s.locals⟩], s.turns, hm, hw, List.getLast?_concat, fun _ _ => ?_⟩
    simp only [List.length_append, State.cachedSets_length, List.length_cons, List.length_nil]
    omega

/-! The call action (R404). -/

/-- Everything a new frame changes. -/
theorem State.newFrame_eq (s : State) (rip nfp : Word) (p : Bool) (rt : BitVec 3) :
    ∃ m r ts, s.newFrame rip nfp p rt =
        { s with
          mem := m, rcache := r, turns := ts
          locals := newLocals (putBit ((s.fp &&& 0xFFFFFFF0) ||| rt.zeroExtend 32) 3 p) (nfp + 64)
            s.draws
          globals := s.globals.set 15 nfp
          depth := s.depth + 1
          draws := s.draws + 16
          icache := { s.icache with fetchingLocked := false } } ∧
      (s.mem.wf = true → m.wf = true) ∧ r.getLast? = some ⟨s.fp, s.locals.set 2 rip⟩ ∧
      (1 ≤ s.config.regcacheSets → s.rcache.length ≤ s.config.regcacheSets →
        r.length ≤ s.config.regcacheSets) := by
  have hset : s.setReg 2 rip = { s with locals := s.locals.set 2 rip } := rfl
  obtain ⟨m, r, ts, hs, hw, hl, hb⟩ := (s.setReg 2 rip).saveLocals_eq s.fp
  refine ⟨m, r, ts, ?_, fun h => hw h, hl, fun h1 h2 => hb h1 h2⟩
  simp only [State.newFrame, hs]
  rw [hset]

/-- Everything a call action answers: the state after it and what it notes, or a spill that the mode
does not allow. -/
theorem Run.callAction_cases (r : Run) (target : Word) (rt : BitVec 3) (base : Word) :
    (r.callAction target rt base = .error (.trap .typeMismatch) ∧ r.s.canSpill = false) ∨
    (r.s.canSpill = true ∧ ∃ noted, r.callAction target rt base = .ok
      { r with
        s := (r.s.newFrame r.s.ip (roundUp16 base) (r.modes.getLsbD 3) rt).goTo target
        noted := noted }) := by
  have hc : r.s.canSpill = match r.s.spillFrame with
      | none => true
      | some f => r.s.em || !r.s.protectedRange f 64 := rfl
  unfold Run.callAction
  cases h : r.s.spillFrame with
  | none =>
    simp only [h] at hc ⊢
    exact .inr ⟨hc, _, rfl⟩
  | some f =>
    simp only [h] at hc ⊢
    by_cases hs : r.s.em = false ∧ r.s.protectedRange f 64 = true
    · rw [if_pos hs]
      exact .inl ⟨rfl, by rw [hc, hs.1, hs.2]; rfl⟩
    · rw [if_neg hs]
      refine .inr ⟨?_, _, rfl⟩
      rw [hc]
      cases he : r.s.em
      · cases hp : r.s.protectedRange f 64
        · rfl
        · exact absurd ⟨he, hp⟩ hs
      · rfl

/-! Taking faults and interrupts. -/

/-- Writing a word changes memory only. -/
theorem State.writeWord_mem (s : State) (a v : Word) : ∃ m, s.writeWord a v = { s with mem := m } :=
  s.writeBytes_eq a _

/-- And it keeps the memory well formed. -/
theorem State.writeWord_wf_mem (s : State) (a v : Word) :
    ∃ m, s.writeWord a v = { s with mem := m } ∧ (s.mem.wf = true → m.wf = true) := by
  obtain ⟨m, h⟩ := s.writeWord_mem a v
  exact ⟨m, h, fun hw => by simpa [h] using State.writeWord_wf hw a v⟩

/-- A fault record changes memory only. -/
theorem State.writeFaultRecord_eq (s : State) (nfp a b : Word) (c : FaultCode) (f : Word) :
    ∃ m, s.writeFaultRecord nfp a b c f = { s with mem := m } ∧ (s.mem.wf = true → m.wf = true) := by
  refine ⟨(s.writeFaultRecord nfp a b c f).mem, ?_, fun h => ?_⟩
  · obtain ⟨m1, h1⟩ := s.writeWord_mem (nfp - 16) a
    obtain ⟨m2, h2⟩ := State.writeWord_mem { s with mem := m1 } (nfp - 12) b
    obtain ⟨m3, h3⟩ := State.writeWord_mem { s with mem := m2 } (nfp - 8) (faultRecordWord c)
    obtain ⟨m4, h4⟩ := State.writeWord_mem { s with mem := m3 } (nfp - 4) f
    simp only [State.writeFaultRecord, h1, h2, h3, h4]
  · exact State.writeWord_wf (State.writeWord_wf (State.writeWord_wf (State.writeWord_wf h _ _) _ _)
      _ _) _ _

/-- Signalling an event changes TC, the pending flag of PC and `traceIp` only. -/
theorem State.signal_eq (s : State) (f : Word) (te : Bool) (a : Word) :
    ∃ tc pc ta, s.signal f te a =
      { s with tc := tc, pctl := pc, trace := { s.trace with traceIp := ta } } ∧
      (pc = s.pctl ∨ pc = putBit s.pctl 10 true) := by
  unfold State.signal
  split_ifs
  · exact ⟨s.tc, s.pctl, s.trace.traceIp, rfl, .inl rfl⟩
  · exact ⟨_, _, a, rfl, .inr rfl⟩
  · exact ⟨_, s.pctl, s.trace.traceIp, rfl, .inl rfl⟩

/-- Signalling with `te` clear changes TC only. -/
theorem State.signal_false (s : State) (f a : Word) :
    ∃ tc, s.signal f false a = { s with tc := tc } := by
  unfold State.signal
  split_ifs
  · exact ⟨s.tc, rfl⟩
  · contradiction
  · exact ⟨_, rfl⟩

/-- Reading the tables changes memory and the turns left. -/
theorem State.afterTables_eq (s : State) (kind : CallKind) :
    ∃ m ts, s.afterTables kind = { s with mem := m, turns := ts } ∧
      (s.mem.wf = true → m.wf = true) := by
  cases kind
  · exact ⟨s.mem, s.turns, rfl, id⟩
  · obtain ⟨m, ts, h⟩ := s.turn_eq
    refine ⟨m, ts, h, fun hs => ?_⟩
    have := State.turn_wf hs
    rwa [h] at this
  · obtain ⟨m, ts, h⟩ := State.turn_turn_eq s.turn_eq
    refine ⟨m, ts, h, fun hs => ?_⟩
    have := State.turn_wf (State.turn_wf hs)
    rwa [h] at this

/-- With nothing due the tables are read as they are. -/
theorem State.afterTables_nil {s : State} (h : s.turns = []) (kind : CallKind) :
    s.afterTables kind = s := by
  cases kind <;> simp only [State.afterTables, State.turn_nil h]

/-- Everything a fault entry answers (`61_faults.md` R537). -/
theorem State.enterFault_cases {s t : State} {c : FaultCode} {a rip : Word}
    (h : s.enterFault c a rip = .ok t) :
    ∃ target kind m r ts tc pc ta, s.faultTarget c = some (target, kind) ∧
      t = { s with
        mem := m, rcache := r, turns := ts
        locals := newLocals (putBit ((s.fp &&& 0xFFFFFFF0) ||| 1) 3 (s.tc.getLsbD 3))
          ((s.afterTables kind).faultFrame kind + 64) s.draws
        globals := s.globals.set 15 ((s.afterTables kind).faultFrame kind)
        depth := s.depth + 1
        draws := s.draws + 16
        icache := { s.icache with fetchingLocked := false }
        tc := tc, pctl := pc, ip := target
        trace := { s.trace with teDelay := { left := 0, old := false }, traceIp := ta } } ∧
      (s.mem.wf = true → m.wf = true) ∧ r.getLast? = some ⟨s.fp, s.locals.set 2 rip⟩ ∧
      (1 ≤ s.config.regcacheSets → s.rcache.length ≤ s.config.regcacheSets →
        r.length ≤ s.config.regcacheSets) ∧
      (pc = (s.afterTables kind).faultPctl c kind ∨
        pc = putBit ((s.afterTables kind).faultPctl c kind) 10 true) := by
  unfold State.enterFault at h
  split at h
  · cases h
  · next target kind ht =>
    injection h with h
    obtain ⟨m0, ts0, h0, hw0⟩ := s.afterTables_eq kind
    obtain ⟨m1, r, ts1, h1, hw1, hl, hb⟩ :=
      (s.afterTables kind).newFrame_eq rip ((s.afterTables kind).faultFrame kind) (s.tc.getLsbD 3) 1
    obtain ⟨ts2, m2, h2, hw2⟩ :
        ∃ ts m, ((s.afterTables kind).newFrame rip ((s.afterTables kind).faultFrame kind)
          (s.tc.getLsbD 3) 1).turn.writeFaultRecord ((s.afterTables kind).faultFrame kind) s.pctl s.ac
            c a =
          { (s.afterTables kind).newFrame rip ((s.afterTables kind).faultFrame kind)
            (s.tc.getLsbD 3) 1 with mem := m, turns := ts } ∧
          (((s.afterTables kind).newFrame rip ((s.afterTables kind).faultFrame kind)
            (s.tc.getLsbD 3) 1).mem.wf = true → m.wf = true) := by
      generalize (s.afterTables kind).newFrame rip ((s.afterTables kind).faultFrame kind)
        (s.tc.getLsbD 3) 1 = u
      obtain ⟨m', ts', h'⟩ := u.turn_eq
      obtain ⟨m, hm, hw⟩ := u.turn.writeFaultRecord_eq ((s.afterTables kind).faultFrame kind) s.pctl s.ac
        c a
      exact ⟨ts', m, by rw [hm, h'], fun hu => hw (State.turn_wf hu)⟩
    simp only [h2] at h
    obtain ⟨tc, pc, ta, h3, hp⟩ := State.signal_eq
      (State.setPctl
        { (s.afterTables kind).newFrame rip ((s.afterTables kind).faultFrame kind)
            (s.tc.getLsbD 3) 1 with mem := m2, turns := ts2 }
        ((s.afterTables kind).faultPctl c kind))
      (evCall &&& eventGate (State.setPctl
        { (s.afterTables kind).newFrame rip ((s.afterTables kind).faultFrame kind)
            (s.tc.getLsbD 3) 1 with mem := m2, turns := ts2 }
        ((s.afterTables kind).faultPctl c kind)).tc)
      (State.te (State.setPctl
        { (s.afterTables kind).newFrame rip ((s.afterTables kind).faultFrame kind)
            (s.tc.getLsbD 3) 1 with mem := m2, turns := ts2 }
        ((s.afterTables kind).faultPctl c kind))) a
    rw [h3] at h
    rw [h1] at hw2
    rw [h0] at hw1 hl hb
    refine ⟨target, kind, m2, r, ts2, tc, pc, ta, ht, ?_, fun hw => hw2 (hw1 (hw0 hw)), hl, hb, hp⟩
    rw [← h, h1]
    generalize (s.afterTables kind).faultFrame kind = nfp at *
    rw [h0]
    rfl

/-- The target of a fault entry is a word address. -/
theorem State.faultTarget_aligned {s : State} {c : FaultCode} {target : Word} {kind : CallKind}
    (h : s.faultTarget c = some (target, kind)) : ∃ w, target = alignTarget w := by
  unfold State.faultTarget at h
  dsimp only at h
  split_ifs at h
  all_goals exact ⟨_, (congrArg Prod.fst (Option.some.inj h)).symm⟩

/-- What taking a fault as an outcome comes to: the entry from a state that differs in `draws` only. -/
theorem takeFault_cases {s0 s t : State} {c : FaultCode} {next : Word}
    (h : takeFault s0 s c next = .next t) :
    ∃ d rip target kind, { s with draws := d }.enterFault c s0.ip rip = .ok t ∧
      { s with draws := d }.faultTarget c = some (target, kind) := by
  obtain ⟨d, rip, he⟩ := takeFault_next h
  obtain ⟨target, kind, _, _, _, _, _, _, ht, _⟩ := State.enterFault_cases he
  exact ⟨d, rip, target, kind, he, ht⟩

/-- Everything the saving of the mask changes (`60_exceptions.md` R517). -/
theorem State.saveMask_eq (s : State) (k : InterruptKind) :
    ∃ l i, s.saveMask k = { s with locals := l, intc := { s.intc with imsk := i } } ∧
      ((k = .software ∧ l = s.locals ∧ i = s.intc.imsk) ∨
        (k ≠ .software ∧ l = s.locals.set 3 s.intc.imsk ∧ (i = s.intc.imsk ∨ i = 0))) := by
  cases k
  · exact ⟨s.locals, s.intc.imsk, rfl, .inl ⟨rfl, rfl, rfl⟩⟩
  all_goals
    simp only [State.saveMask]
    split_ifs
    · exact ⟨_, 0, rfl, .inr ⟨by simp, rfl, .inr rfl⟩⟩
    · exact ⟨_, s.intc.imsk, rfl, .inr ⟨by simp, rfl, .inl rfl⟩⟩

/-- What an interrupt entry leaves as it was, and what it makes of the rest (R514). -/
theorem State.enterInterrupt_cases (s : State) (v : BitVec 8) (k : InterruptKind) :
    ∃ l m r ts tc i f, s.enterInterrupt v k =
      { s with
        locals := l, mem := m, rcache := r, turns := ts
        globals := s.globals.set 15 s.interruptFrame
        depth := s.depth + 1
        draws := s.draws + 16
        tc := tc, pctl := interruptPctl s.pctl v
        intc := { s.intc with imsk := i }
        ip := alignTarget (s.vectorEntry v k)
        icache := { s.icache with fetchingLocked := f }
        trace := { s.trace with teDelay := { left := 0, old := false } } } ∧
      (s.mem.wf = true → m.wf = true) ∧ r.getLast? = some ⟨s.fp, s.locals.set 2 s.ip⟩ ∧
      (1 ≤ s.config.regcacheSets → s.rcache.length ≤ s.config.regcacheSets →
        r.length ≤ s.config.regcacheSets) := by
  obtain ⟨m, r, ts, hn, hw, hl, hb⟩ :=
    State.newFrame_eq { s with turns := [] } s.ip s.interruptFrame (s.tc.getLsbD 3) 7
  obtain ⟨m1, h1, w1⟩ := State.writeWord_wf_mem
    (State.newFrame { s with turns := [] } s.ip s.interruptFrame (s.tc.getLsbD 3) 7)
    (s.interruptFrame - 16) s.pctl
  obtain ⟨m2, h2, w2⟩ := State.writeWord_wf_mem
    { State.newFrame { s with turns := [] } s.ip s.interruptFrame (s.tc.getLsbD 3) 7 with mem := m1 }
    (s.interruptFrame - 12) s.ac
  obtain ⟨m3, h3, w3⟩ := State.writeWord_wf_mem
    { State.newFrame { s with turns := [] } s.ip s.interruptFrame (s.tc.getLsbD 3) 7 with mem := m2 }
    (s.interruptFrame - 8) (v.zeroExtend 32)
  obtain ⟨l, i, h4, -⟩ := State.saveMask_eq (State.setPctl
    { State.newFrame { s with turns := [] } s.ip s.interruptFrame (s.tc.getLsbD 3) 7 with mem := m3 }
    (interruptPctl s.pctl v)) k
  rw [hn] at h1 h2 h3 h4 w1 w2 w3
  simp only [State.enterInterrupt, hn, h1, h2, h3, h4]
  obtain ⟨tc, h5⟩ := State.signal_false _ _ s.ip
  exact ⟨l, m3, r, ts, tc, i, _, by rw [h5]; rfl, fun h => w3 (w2 (w1 (hw h))), hl, hb⟩

/-! Initialization (`70_reset_and_hazards.md` R602). -/

/-- Loading a group changes control registers and TC only. -/
theorem State.loadGroup_eq (s : State) (g : Nat) (w0 w1 w2 w3 : Word) :
    ∃ c tc, s.loadGroup g w0 w1 w2 w3 = { s with ctrl := c, tc := tc } := by
  unfold State.loadGroup
  split <;> exact ⟨_, _, rfl⟩

/-- Loading all groups changes control registers and TC only, and BCON.ctv is set. -/
theorem State.initControls_eq (s : State) :
    ∃ c tc, s.initControls = { s with ctrl := c, tc := tc } ∧ c.bcon.getLsbD 0 = true := by
  have key : ∀ (gs : List Nat) (t : State),
      ∃ c tc, gs.foldl State.initGroup t = { t with ctrl := c, tc := tc } := by
    intro gs
    induction gs with
    | nil => exact fun t => ⟨t.ctrl, t.tc, rfl⟩
    | cons g gs ih =>
      intro t
      obtain ⟨c1, tc1, h1⟩ := State.loadGroup_eq t g (t.mem.readWord false (t.groupAddress g))
        (t.mem.readWord false (t.groupAddress g + 4)) (t.mem.readWord false (t.groupAddress g + 8))
        (t.mem.readWord false (t.groupAddress g + 12))
      obtain ⟨c2, tc2, h2⟩ := ih (t.initGroup g)
      exact ⟨c2, tc2, by rw [List.foldl_cons, h2]; simp only [State.initGroup, h1]⟩
  obtain ⟨c, tc, h⟩ := key (List.range 7) s
  refine ⟨{ c with bcon := putBit c.bcon 0 true }, tc, by simp only [State.initControls, h], ?_⟩
  simp [putBit]

/-- What an initialization leaves (R602, R603). -/
theorem State.initialize_cases (s : State) (k : InitKind) (b : Boot) :
    let t := s.initialize k b
    t.ip = alignTarget b.firstIp ∧ t.ac = b.initAc ∧ t.pctl = 0x001F2002 ∧ t.rcache = [] ∧
      t.depth = 0 ∧ t.tables = b.tables ∧ t.config = b.config ∧ t.boot = s.boot ∧ t.turns = [] ∧
      t.icache.image = t.mem ∧ t.icache.locked = none ∧ t.icache.fetchingLocked = false ∧
      t.trace.tcDelay.left = 0 ∧ t.trace.teDelay.left = 0 ∧ t.intc.events = s.intc.events ∧
      t.intc.nmiPending = false ∧ t.intc.nmiDepth = none ∧ t.ctrl.bcon.getLsbD 0 = true ∧
      (s.mem.wf = true → t.mem.wf = true) := by
  obtain ⟨c, tc, h, hc⟩ := State.initControls_eq { s with tables := b.tables, config := b.config }
  obtain ⟨m, hm, hw⟩ := State.writeWord_wf_mem
    { s with tables := b.tables, config := b.config, ctrl := c, tc := tc } 0
    (s.mem.readWord false (b.tables.intTableBase + 0x3E4))
  cases k <;>
  · simp only [State.initialize, h, State.initInterrupts, hm, State.initMasks, State.initDma,
      State.initRegisters, State.initProgram]
    refine ⟨?_, ?_, ?_, ?_, ?_, ?_, ?_, ?_, ?_, ?_, ?_, ?_, ?_, ?_, ?_, ?_, ?_, hc, hw⟩ <;> trivial

end Sys2Proof.Machine
end

