-- ==== Sys2Proof/Laws/PerInstr.lean ====
section
/-! SUPPORT. Facts about every instruction as syntax, one lemma per constructor: the encoder writes as many
words as the first one says (`30_encoding.md` R168). -/

namespace Sys2Proof

theorem opByte_packCtrl (op : BitVec 8) (disp : BitVec 22) (t : Bool) :
    opByte (packCtrl op disp t) = op.toNat := congrArg BitVec.toNat (packCtrl_op op disp t)

theorem opByte_packCobr (op : BitVec 8) (a b : BitVec 5) (m : Bool) (d : BitVec 11) (t k : Bool) :
    opByte (packCobr op a b m d t k) = op.toNat :=
  congrArg BitVec.toNat (packCobr_op op a b m d t k)

theorem opByte_packReg (hi : BitVec 8) (lo : BitVec 4) (d b : BitVec 5) (m3 m2 m1 k2 k1 : Bool)
    (a : BitVec 5) : opByte (packReg hi lo d b m3 m2 m1 k2 k1 a) = hi.toNat :=
  congrArg BitVec.toNat (packReg_op hi lo d b m3 m2 m1 k2 k1 a)

theorem hasSecondWord_low {w : Word} (h : opByte w < 0x80) : hasSecondWord w = false := by
  rw [hasSecondWord, decide_eq_false (by omega)]; rfl

theorem hasSecondWord_packMema (op : BitVec 8) (r a : BitVec 5) (m : Bool) (o : BitVec 12) :
    hasSecondWord (packMema op r a m o) = false := by
  rw [hasSecondWord, packMema_memb]; simp

/-- A MEMB word has a second word exactly in the five modes with a displacement. -/
theorem hasSecondWord_packMemb {op : BitVec 8} (h : 0x80 ≤ op.toNat) (r a : BitVec 5) {m : BitVec 4}
    (hm : m.getLsbD 2 = true) (k : BitVec 3) (i : BitVec 5) :
    hasSecondWord (packMemb op r a m k i) =
      (match m.toNat with
       | 5 => true
       | 12 => true
       | 13 => true
       | 14 => true
       | 15 => true
       | _ => false) := by
  have ho : opByte (packMemb op r a m k i) = op.toNat :=
    congrArg BitVec.toNat (packMemb_op op r a m k i)
  have h12 : (packMemb op r a m k i).getLsbD 12 = true := by
    have := congrArg (fun v : BitVec 4 => v.getLsbD 2) (packMemb_mode op r a m k i)
    rw [BitVec.getLsbD_extractLsb'] at this
    have h2 : m[2] = true := hm
    simpa [h2] using this
  rw [hasSecondWord, ho, h12, packMemb_mode, decide_eq_true h]; rfl

/-- The words that the encoder of a MEM instruction writes. -/
theorem encodeMem_length {op : BitVec 8} (h : 0x80 ≤ op.toNat) (r : BitVec 5) (e : Efa) :
    (encodeMem op r e).length =
      if hasSecondWord ((encodeMem op r e).headD 0) then 2 else 1 := by
  cases e <;>
    simp only [encodeMem, List.headD_cons, hasSecondWord_packMema,
      hasSecondWord_packMemb h _ _ (m := 4) rfl, hasSecondWord_packMemb h _ _ (m := 5) rfl,
      hasSecondWord_packMemb h _ _ (m := 7) rfl, hasSecondWord_packMemb h _ _ (m := 12) rfl,
      hasSecondWord_packMemb h _ _ (m := 13) rfl, hasSecondWord_packMemb h _ _ (m := 14) rfl,
      hasSecondWord_packMemb h _ _ (m := 15) rfl] <;> rfl

end Sys2Proof

namespace Sys2Proof.Laws

/-- The encoder writes one or two words, as the first of them says. -/
def Encoded.Statement (i : Instr) : Prop :=
  (encode i).length = if hasSecondWord ((encode i).headD 0) then 2 else 1

/-- An encoding of a single word outside the MEM format. -/
theorem Encoded.of_word {i : Instr} {w : Word} (h : encode i = [w]) (hw : opByte w < 0x80) :
    Encoded.Statement i := by
  rw [Encoded.Statement, h, List.headD_cons, hasSecondWord_low hw]; rfl

theorem Encoded.b (disp : BitVec 22) (t : Bool) : Encoded.Statement (.b disp t) :=
  Encoded.of_word rfl (by rw [opByte_packCtrl]; decide)

theorem Encoded.call (disp : BitVec 22) (t : Bool) : Encoded.Statement (.call disp t) :=
  Encoded.of_word rfl (by rw [opByte_packCtrl]; decide)

theorem Encoded.ret : Encoded.Statement (.ret) :=
  Encoded.of_word rfl (by rw [opByte_packCtrl]; decide)

theorem Encoded.bal (disp : BitVec 22) (t : Bool) : Encoded.Statement (.bal disp t) :=
  Encoded.of_word rfl (by rw [opByte_packCtrl]; decide)

theorem Encoded.bno (disp : BitVec 22) (t : Bool) : Encoded.Statement (.bno disp t) :=
  Encoded.of_word rfl (by rw [opByte_packCtrl]; decide)

theorem Encoded.bg (disp : BitVec 22) (t : Bool) : Encoded.Statement (.bg disp t) :=
  Encoded.of_word rfl (by rw [opByte_packCtrl]; decide)

theorem Encoded.be (disp : BitVec 22) (t : Bool) : Encoded.Statement (.be disp t) :=
  Encoded.of_word rfl (by rw [opByte_packCtrl]; decide)

theorem Encoded.bge (disp : BitVec 22) (t : Bool) : Encoded.Statement (.bge disp t) :=
  Encoded.of_word rfl (by rw [opByte_packCtrl]; decide)

theorem Encoded.bl (disp : BitVec 22) (t : Bool) : Encoded.Statement (.bl disp t) :=
  Encoded.of_word rfl (by rw [opByte_packCtrl]; decide)

theorem Encoded.bne (disp : BitVec 22) (t : Bool) : Encoded.Statement (.bne disp t) :=
  Encoded.of_word rfl (by rw [opByte_packCtrl]; decide)

theorem Encoded.ble (disp : BitVec 22) (t : Bool) : Encoded.Statement (.ble disp t) :=
  Encoded.of_word rfl (by rw [opByte_packCtrl]; decide)

theorem Encoded.bo (disp : BitVec 22) (t : Bool) : Encoded.Statement (.bo disp t) :=
  Encoded.of_word rfl (by rw [opByte_packCtrl]; decide)

theorem Encoded.faultno : Encoded.Statement (.faultno) :=
  Encoded.of_word rfl (by rw [opByte_packCtrl]; decide)

theorem Encoded.faultg : Encoded.Statement (.faultg) :=
  Encoded.of_word rfl (by rw [opByte_packCtrl]; decide)

theorem Encoded.faulte : Encoded.Statement (.faulte) :=
  Encoded.of_word rfl (by rw [opByte_packCtrl]; decide)

theorem Encoded.faultge : Encoded.Statement (.faultge) :=
  Encoded.of_word rfl (by rw [opByte_packCtrl]; decide)

theorem Encoded.faultl : Encoded.Statement (.faultl) :=
  Encoded.of_word rfl (by rw [opByte_packCtrl]; decide)

theorem Encoded.faultne : Encoded.Statement (.faultne) :=
  Encoded.of_word rfl (by rw [opByte_packCtrl]; decide)

theorem Encoded.faultle : Encoded.Statement (.faultle) :=
  Encoded.of_word rfl (by rw [opByte_packCtrl]; decide)

theorem Encoded.faulto : Encoded.Statement (.faulto) :=
  Encoded.of_word rfl (by rw [opByte_packCtrl]; decide)

theorem Encoded.testno (dst : Upd) : Encoded.Statement (.testno dst) :=
  Encoded.of_word rfl (by rw [opByte_packCobr]; decide)

theorem Encoded.testg (dst : Upd) : Encoded.Statement (.testg dst) :=
  Encoded.of_word rfl (by rw [opByte_packCobr]; decide)

theorem Encoded.teste (dst : Upd) : Encoded.Statement (.teste dst) :=
  Encoded.of_word rfl (by rw [opByte_packCobr]; decide)

theorem Encoded.testge (dst : Upd) : Encoded.Statement (.testge dst) :=
  Encoded.of_word rfl (by rw [opByte_packCobr]; decide)

theorem Encoded.testl (dst : Upd) : Encoded.Statement (.testl dst) :=
  Encoded.of_word rfl (by rw [opByte_packCobr]; decide)

theorem Encoded.testne (dst : Upd) : Encoded.Statement (.testne dst) :=
  Encoded.of_word rfl (by rw [opByte_packCobr]; decide)

theorem Encoded.testle (dst : Upd) : Encoded.Statement (.testle dst) :=
  Encoded.of_word rfl (by rw [opByte_packCobr]; decide)

theorem Encoded.testo (dst : Upd) : Encoded.Statement (.testo dst) :=
  Encoded.of_word rfl (by rw [opByte_packCobr]; decide)

theorem Encoded.bbc (src1 : CSrc1) (src2 : CSrc2) (disp : BitVec 11) (t : Bool) :
    Encoded.Statement (.bbc src1 src2 disp t) :=
  Encoded.of_word rfl (by rw [opByte_packCobr]; decide)

theorem Encoded.cmpobg (src1 : CSrc1) (src2 : CSrc2) (disp : BitVec 11) (t : Bool) :
    Encoded.Statement (.cmpobg src1 src2 disp t) :=
  Encoded.of_word rfl (by rw [opByte_packCobr]; decide)

theorem Encoded.cmpobe (src1 : CSrc1) (src2 : CSrc2) (disp : BitVec 11) (t : Bool) :
    Encoded.Statement (.cmpobe src1 src2 disp t) :=
  Encoded.of_word rfl (by rw [opByte_packCobr]; decide)

theorem Encoded.cmpobge (src1 : CSrc1) (src2 : CSrc2) (disp : BitVec 11) (t : Bool) :
    Encoded.Statement (.cmpobge src1 src2 disp t) :=
  Encoded.of_word rfl (by rw [opByte_packCobr]; decide)

theorem Encoded.cmpobl (src1 : CSrc1) (src2 : CSrc2) (disp : BitVec 11) (t : Bool) :
    Encoded.Statement (.cmpobl src1 src2 disp t) :=
  Encoded.of_word rfl (by rw [opByte_packCobr]; decide)

theorem Encoded.cmpobne (src1 : CSrc1) (src2 : CSrc2) (disp : BitVec 11) (t : Bool) :
    Encoded.Statement (.cmpobne src1 src2 disp t) :=
  Encoded.of_word rfl (by rw [opByte_packCobr]; decide)

theorem Encoded.cmpoble (src1 : CSrc1) (src2 : CSrc2) (disp : BitVec 11) (t : Bool) :
    Encoded.Statement (.cmpoble src1 src2 disp t) :=
  Encoded.of_word rfl (by rw [opByte_packCobr]; decide)

theorem Encoded.bbs (src1 : CSrc1) (src2 : CSrc2) (disp : BitVec 11) (t : Bool) :
    Encoded.Statement (.bbs src1 src2 disp t) :=
  Encoded.of_word rfl (by rw [opByte_packCobr]; decide)

theorem Encoded.cmpibno (src1 : CSrc1) (src2 : CSrc2) (disp : BitVec 11) (t : Bool) :
    Encoded.Statement (.cmpibno src1 src2 disp t) :=
  Encoded.of_word rfl (by rw [opByte_packCobr]; decide)

theorem Encoded.cmpibg (src1 : CSrc1) (src2 : CSrc2) (disp : BitVec 11) (t : Bool) :
    Encoded.Statement (.cmpibg src1 src2 disp t) :=
  Encoded.of_word rfl (by rw [opByte_packCobr]; decide)

theorem Encoded.cmpibe (src1 : CSrc1) (src2 : CSrc2) (disp : BitVec 11) (t : Bool) :
    Encoded.Statement (.cmpibe src1 src2 disp t) :=
  Encoded.of_word rfl (by rw [opByte_packCobr]; decide)

theorem Encoded.cmpibge (src1 : CSrc1) (src2 : CSrc2) (disp : BitVec 11) (t : Bool) :
    Encoded.Statement (.cmpibge src1 src2 disp t) :=
  Encoded.of_word rfl (by rw [opByte_packCobr]; decide)

theorem Encoded.cmpibl (src1 : CSrc1) (src2 : CSrc2) (disp : BitVec 11) (t : Bool) :
    Encoded.Statement (.cmpibl src1 src2 disp t) :=
  Encoded.of_word rfl (by rw [opByte_packCobr]; decide)

theorem Encoded.cmpibne (src1 : CSrc1) (src2 : CSrc2) (disp : BitVec 11) (t : Bool) :
    Encoded.Statement (.cmpibne src1 src2 disp t) :=
  Encoded.of_word rfl (by rw [opByte_packCobr]; decide)

theorem Encoded.cmpible (src1 : CSrc1) (src2 : CSrc2) (disp : BitVec 11) (t : Bool) :
    Encoded.Statement (.cmpible src1 src2 disp t) :=
  Encoded.of_word rfl (by rw [opByte_packCobr]; decide)

theorem Encoded.cmpibo (src1 : CSrc1) (src2 : CSrc2) (disp : BitVec 11) (t : Bool) :
    Encoded.Statement (.cmpibo src1 src2 disp t) :=
  Encoded.of_word rfl (by rw [opByte_packCobr]; decide)

theorem Encoded.notbit (src1 src2 : Src) (dst : Dst) : Encoded.Statement (.notbit src1 src2 dst) :=
  Encoded.of_word rfl (by rw [opByte_packReg]; decide)

theorem Encoded.and (src1 src2 : Src) (dst : Dst) : Encoded.Statement (.and src1 src2 dst) :=
  Encoded.of_word rfl (by rw [opByte_packReg]; decide)

theorem Encoded.andnot (src1 src2 : Src) (dst : Dst) : Encoded.Statement (.andnot src1 src2 dst) :=
  Encoded.of_word rfl (by rw [opByte_packReg]; decide)

theorem Encoded.setbit (src1 src2 : Src) (dst : Dst) : Encoded.Statement (.setbit src1 src2 dst) :=
  Encoded.of_word rfl (by rw [opByte_packReg]; decide)

theorem Encoded.notand (src1 src2 : Src) (dst : Dst) : Encoded.Statement (.notand src1 src2 dst) :=
  Encoded.of_word rfl (by rw [opByte_packReg]; decide)

theorem Encoded.xor (src1 src2 : Src) (dst : Dst) : Encoded.Statement (.xor src1 src2 dst) :=
  Encoded.of_word rfl (by rw [opByte_packReg]; decide)

theorem Encoded.or (src1 src2 : Src) (dst : Dst) : Encoded.Statement (.or src1 src2 dst) :=
  Encoded.of_word rfl (by rw [opByte_packReg]; decide)

theorem Encoded.nor (src1 src2 : Src) (dst : Dst) : Encoded.Statement (.nor src1 src2 dst) :=
  Encoded.of_word rfl (by rw [opByte_packReg]; decide)

theorem Encoded.xnor (src1 src2 : Src) (dst : Dst) : Encoded.Statement (.xnor src1 src2 dst) :=
  Encoded.of_word rfl (by rw [opByte_packReg]; decide)

theorem Encoded.not (src : Src) (dst : Dst) : Encoded.Statement (.not src dst) :=
  Encoded.of_word rfl (by rw [opByte_packReg]; decide)

theorem Encoded.ornot (src1 src2 : Src) (dst : Dst) : Encoded.Statement (.ornot src1 src2 dst) :=
  Encoded.of_word rfl (by rw [opByte_packReg]; decide)

theorem Encoded.clrbit (src1 src2 : Src) (dst : Dst) : Encoded.Statement (.clrbit src1 src2 dst) :=
  Encoded.of_word rfl (by rw [opByte_packReg]; decide)

theorem Encoded.notor (src1 src2 : Src) (dst : Dst) : Encoded.Statement (.notor src1 src2 dst) :=
  Encoded.of_word rfl (by rw [opByte_packReg]; decide)

theorem Encoded.nand (src1 src2 : Src) (dst : Dst) : Encoded.Statement (.nand src1 src2 dst) :=
  Encoded.of_word rfl (by rw [opByte_packReg]; decide)

theorem Encoded.alterbit (src1 src2 : Src) (dst : Dst) :
    Encoded.Statement (.alterbit src1 src2 dst) :=
  Encoded.of_word rfl (by rw [opByte_packReg]; decide)

theorem Encoded.addo (src1 src2 : Src) (dst : Dst) : Encoded.Statement (.addo src1 src2 dst) :=
  Encoded.of_word rfl (by rw [opByte_packReg]; decide)

theorem Encoded.addi (src1 src2 : Src) (dst : Dst) : Encoded.Statement (.addi src1 src2 dst) :=
  Encoded.of_word rfl (by rw [opByte_packReg]; decide)

theorem Encoded.subo (src1 src2 : Src) (dst : Dst) : Encoded.Statement (.subo src1 src2 dst) :=
  Encoded.of_word rfl (by rw [opByte_packReg]; decide)

theorem Encoded.subi (src1 src2 : Src) (dst : Dst) : Encoded.Statement (.subi src1 src2 dst) :=
  Encoded.of_word rfl (by rw [opByte_packReg]; decide)

theorem Encoded.shro (src1 src2 : Src) (dst : Dst) : Encoded.Statement (.shro src1 src2 dst) :=
  Encoded.of_word rfl (by rw [opByte_packReg]; decide)

theorem Encoded.shrdi (src1 src2 : Src) (dst : Dst) : Encoded.Statement (.shrdi src1 src2 dst) :=
  Encoded.of_word rfl (by rw [opByte_packReg]; decide)

theorem Encoded.shri (src1 src2 : Src) (dst : Dst) : Encoded.Statement (.shri src1 src2 dst) :=
  Encoded.of_word rfl (by rw [opByte_packReg]; decide)

theorem Encoded.shlo (src1 src2 : Src) (dst : Dst) : Encoded.Statement (.shlo src1 src2 dst) :=
  Encoded.of_word rfl (by rw [opByte_packReg]; decide)

theorem Encoded.rotate (src1 src2 : Src) (dst : Dst) : Encoded.Statement (.rotate src1 src2 dst) :=
  Encoded.of_word rfl (by rw [opByte_packReg]; decide)

theorem Encoded.shli (src1 src2 : Src) (dst : Dst) : Encoded.Statement (.shli src1 src2 dst) :=
  Encoded.of_word rfl (by rw [opByte_packReg]; decide)

theorem Encoded.cmpo (src1 src2 : Src) : Encoded.Statement (.cmpo src1 src2) :=
  Encoded.of_word rfl (by rw [opByte_packReg]; decide)

theorem Encoded.cmpi (src1 src2 : Src) : Encoded.Statement (.cmpi src1 src2) :=
  Encoded.of_word rfl (by rw [opByte_packReg]; decide)

theorem Encoded.concmpo (src1 src2 : Src) : Encoded.Statement (.concmpo src1 src2) :=
  Encoded.of_word rfl (by rw [opByte_packReg]; decide)

theorem Encoded.concmpi (src1 src2 : Src) : Encoded.Statement (.concmpi src1 src2) :=
  Encoded.of_word rfl (by rw [opByte_packReg]; decide)

theorem Encoded.cmpinco (src1 src2 : Src) (dst : Dst) :
    Encoded.Statement (.cmpinco src1 src2 dst) :=
  Encoded.of_word rfl (by rw [opByte_packReg]; decide)

theorem Encoded.cmpinci (src1 src2 : Src) (dst : Dst) :
    Encoded.Statement (.cmpinci src1 src2 dst) :=
  Encoded.of_word rfl (by rw [opByte_packReg]; decide)

theorem Encoded.cmpdeco (src1 src2 : Src) (dst : Dst) :
    Encoded.Statement (.cmpdeco src1 src2 dst) :=
  Encoded.of_word rfl (by rw [opByte_packReg]; decide)

theorem Encoded.cmpdeci (src1 src2 : Src) (dst : Dst) :
    Encoded.Statement (.cmpdeci src1 src2 dst) :=
  Encoded.of_word rfl (by rw [opByte_packReg]; decide)

theorem Encoded.scanbyte (src1 src2 : Src) : Encoded.Statement (.scanbyte src1 src2) :=
  Encoded.of_word rfl (by rw [opByte_packReg]; decide)

theorem Encoded.chkbit (src1 src2 : Src) : Encoded.Statement (.chkbit src1 src2) :=
  Encoded.of_word rfl (by rw [opByte_packReg]; decide)

theorem Encoded.addc (src1 src2 : Src) (dst : Dst) : Encoded.Statement (.addc src1 src2 dst) :=
  Encoded.of_word rfl (by rw [opByte_packReg]; decide)

theorem Encoded.subc (src1 src2 : Src) (dst : Dst) : Encoded.Statement (.subc src1 src2 dst) :=
  Encoded.of_word rfl (by rw [opByte_packReg]; decide)

theorem Encoded.mov (src : Src) (dst : Dst) : Encoded.Statement (.mov src dst) :=
  Encoded.of_word rfl (by rw [opByte_packReg]; decide)

theorem Encoded.eshro (src1 src2 : Src) (dst : Dst) : Encoded.Statement (.eshro src1 src2 dst) :=
  Encoded.of_word rfl (by rw [opByte_packReg]; decide)

theorem Encoded.movl (src : Src) (dst : Dst) : Encoded.Statement (.movl src dst) :=
  Encoded.of_word rfl (by rw [opByte_packReg]; decide)

theorem Encoded.movt (src : Src) (dst : Dst) : Encoded.Statement (.movt src dst) :=
  Encoded.of_word rfl (by rw [opByte_packReg]; decide)

theorem Encoded.movq (src : Src) (dst : Dst) : Encoded.Statement (.movq src dst) :=
  Encoded.of_word rfl (by rw [opByte_packReg]; decide)

theorem Encoded.atmod (src1 src2 : Src) (dst : Upd) : Encoded.Statement (.atmod src1 src2 dst) :=
  Encoded.of_word rfl (by rw [opByte_packReg]; decide)

theorem Encoded.atadd (src1 src2 : Src) (dst : Dst) : Encoded.Statement (.atadd src1 src2 dst) :=
  Encoded.of_word rfl (by rw [opByte_packReg]; decide)

theorem Encoded.sdma (src1 src2 : Src) (src3 : Src3) : Encoded.Statement (.sdma src1 src2 src3) :=
  Encoded.of_word rfl (by rw [opByte_packReg]; decide)

theorem Encoded.udma : Encoded.Statement (.udma) :=
  Encoded.of_word rfl (by rw [opByte_packReg]; decide)

theorem Encoded.spanbit (src : Src) (dst : Dst) : Encoded.Statement (.spanbit src dst) :=
  Encoded.of_word rfl (by rw [opByte_packReg]; decide)

theorem Encoded.scanbit (src : Src) (dst : Dst) : Encoded.Statement (.scanbit src dst) :=
  Encoded.of_word rfl (by rw [opByte_packReg]; decide)

theorem Encoded.modac (src1 src2 : Src) (dst : Dst) : Encoded.Statement (.modac src1 src2 dst) :=
  Encoded.of_word rfl (by rw [opByte_packReg]; decide)

theorem Encoded.modify (src1 src2 : Src) (dst : Upd) : Encoded.Statement (.modify src1 src2 dst) :=
  Encoded.of_word rfl (by rw [opByte_packReg]; decide)

theorem Encoded.extract (src1 src2 : Src) (dst : Upd) :
    Encoded.Statement (.extract src1 src2 dst) :=
  Encoded.of_word rfl (by rw [opByte_packReg]; decide)

theorem Encoded.modtc (src1 src2 : Src) (dst : Dst) : Encoded.Statement (.modtc src1 src2 dst) :=
  Encoded.of_word rfl (by rw [opByte_packReg]; decide)

theorem Encoded.modpc (src1 src2 : Src) (dst : Upd) : Encoded.Statement (.modpc src1 src2 dst) :=
  Encoded.of_word rfl (by rw [opByte_packReg]; decide)

theorem Encoded.sysctl (src1 src2 : Src) (src3 : Src3) :
    Encoded.Statement (.sysctl src1 src2 src3) :=
  Encoded.of_word rfl (by rw [opByte_packReg]; decide)

theorem Encoded.calls (src : Src) : Encoded.Statement (.calls src) :=
  Encoded.of_word rfl (by rw [opByte_packReg]; decide)

theorem Encoded.mark : Encoded.Statement (.mark) :=
  Encoded.of_word rfl (by rw [opByte_packReg]; decide)

theorem Encoded.fmark : Encoded.Statement (.fmark) :=
  Encoded.of_word rfl (by rw [opByte_packReg]; decide)

theorem Encoded.flushreg : Encoded.Statement (.flushreg) :=
  Encoded.of_word rfl (by rw [opByte_packReg]; decide)

theorem Encoded.syncf : Encoded.Statement (.syncf) :=
  Encoded.of_word rfl (by rw [opByte_packReg]; decide)

theorem Encoded.emul (src1 src2 : Src) (dst : Dst) : Encoded.Statement (.emul src1 src2 dst) :=
  Encoded.of_word rfl (by rw [opByte_packReg]; decide)

theorem Encoded.ediv (src1 src2 : Src) (dst : Dst) : Encoded.Statement (.ediv src1 src2 dst) :=
  Encoded.of_word rfl (by rw [opByte_packReg]; decide)

theorem Encoded.mulo (src1 src2 : Src) (dst : Dst) : Encoded.Statement (.mulo src1 src2 dst) :=
  Encoded.of_word rfl (by rw [opByte_packReg]; decide)

theorem Encoded.remo (src1 src2 : Src) (dst : Dst) : Encoded.Statement (.remo src1 src2 dst) :=
  Encoded.of_word rfl (by rw [opByte_packReg]; decide)

theorem Encoded.divo (src1 src2 : Src) (dst : Dst) : Encoded.Statement (.divo src1 src2 dst) :=
  Encoded.of_word rfl (by rw [opByte_packReg]; decide)

theorem Encoded.muli (src1 src2 : Src) (dst : Dst) : Encoded.Statement (.muli src1 src2 dst) :=
  Encoded.of_word rfl (by rw [opByte_packReg]; decide)

theorem Encoded.remi (src1 src2 : Src) (dst : Dst) : Encoded.Statement (.remi src1 src2 dst) :=
  Encoded.of_word rfl (by rw [opByte_packReg]; decide)

theorem Encoded.modi (src1 src2 : Src) (dst : Dst) : Encoded.Statement (.modi src1 src2 dst) :=
  Encoded.of_word rfl (by rw [opByte_packReg]; decide)

theorem Encoded.divi (src1 src2 : Src) (dst : Dst) : Encoded.Statement (.divi src1 src2 dst) :=
  Encoded.of_word rfl (by rw [opByte_packReg]; decide)

theorem Encoded.ldob (efa : Efa) (dst : RegNum) : Encoded.Statement (.ldob efa dst) :=
  encodeMem_length (by decide) _ _

theorem Encoded.stob (src : RegNum) (efa : Efa) : Encoded.Statement (.stob src efa) :=
  encodeMem_length (by decide) _ _

theorem Encoded.bx (efa : Efa) : Encoded.Statement (.bx efa) :=
  encodeMem_length (by decide) _ _

theorem Encoded.balx (efa : Efa) (dst : RegNum) : Encoded.Statement (.balx efa dst) :=
  encodeMem_length (by decide) _ _

theorem Encoded.callx (efa : Efa) : Encoded.Statement (.callx efa) :=
  encodeMem_length (by decide) _ _

theorem Encoded.ldos (efa : Efa) (dst : RegNum) : Encoded.Statement (.ldos efa dst) :=
  encodeMem_length (by decide) _ _

theorem Encoded.stos (src : RegNum) (efa : Efa) : Encoded.Statement (.stos src efa) :=
  encodeMem_length (by decide) _ _

theorem Encoded.lda (efa : Efa) (dst : RegNum) : Encoded.Statement (.lda efa dst) :=
  encodeMem_length (by decide) _ _

theorem Encoded.ld (efa : Efa) (dst : RegNum) : Encoded.Statement (.ld efa dst) :=
  encodeMem_length (by decide) _ _

theorem Encoded.st (src : RegNum) (efa : Efa) : Encoded.Statement (.st src efa) :=
  encodeMem_length (by decide) _ _

theorem Encoded.ldl (efa : Efa) (dst : RegNum) : Encoded.Statement (.ldl efa dst) :=
  encodeMem_length (by decide) _ _

theorem Encoded.stl (src : RegNum) (efa : Efa) : Encoded.Statement (.stl src efa) :=
  encodeMem_length (by decide) _ _

theorem Encoded.ldt (efa : Efa) (dst : RegNum) : Encoded.Statement (.ldt efa dst) :=
  encodeMem_length (by decide) _ _

theorem Encoded.stt (src : RegNum) (efa : Efa) : Encoded.Statement (.stt src efa) :=
  encodeMem_length (by decide) _ _

theorem Encoded.ldq (efa : Efa) (dst : RegNum) : Encoded.Statement (.ldq efa dst) :=
  encodeMem_length (by decide) _ _

theorem Encoded.stq (src : RegNum) (efa : Efa) : Encoded.Statement (.stq src efa) :=
  encodeMem_length (by decide) _ _

theorem Encoded.ldib (efa : Efa) (dst : RegNum) : Encoded.Statement (.ldib efa dst) :=
  encodeMem_length (by decide) _ _

theorem Encoded.stib (src : RegNum) (efa : Efa) : Encoded.Statement (.stib src efa) :=
  encodeMem_length (by decide) _ _

theorem Encoded.ldis (efa : Efa) (dst : RegNum) : Encoded.Statement (.ldis efa dst) :=
  encodeMem_length (by decide) _ _

theorem Encoded.stis (src : RegNum) (efa : Efa) : Encoded.Statement (.stis src efa) :=
  encodeMem_length (by decide) _ _

end Sys2Proof.Laws
end

