-- ==== Sys2Proof/Tests/Slice0.lean ====
section
/-! SUPPORT. Tests: ill-formed terms refused, words decoded, single steps with results from the spec's
own vectors, and for every statement with hypotheses a state that meets them. -/

namespace Sys2Proof.Tests
open Sys2Proof.Machine

/-! Helpers. -/

/-- The outcome is a next state with a property that can be computed. -/
def after (o : Host.Outcome State Fault Refusal) (f : State → Bool) : Bool :=
  match o with
  | .next t => f t
  | _ => false

/-- The outcome is a next state. -/
def isNext (o : Host.Outcome State Fault Refusal) : Bool := after o fun _ => true

/-- Supervisor mode, FP = 3000H, SP = 3040H, AC.om = 1, AC.nif = 1. -/
def base : State := (({ State.reset with ac := 0x9000 }.setReg 31 0x3000).setReg 1 0x3040).setReg 0 0x2000

/-- The same in user mode. -/
def user : State := { base with pctl := 0x00050000 }

/-- Words put into memory. -/
def State.words (s : State) : List (Word × Word) → State
  | [] => s
  | (a, w) :: l => State.words (s.writeWord a w) l

/-- Values put into registers. -/
def State.regs (s : State) : List (RegNum × Word) → State
  | [] => s
  | (n, w) :: l => State.regs (s.setReg n w) l

/-- One step that runs a word. -/
def ran (s : State) (w : Nat) (f : State → Bool) : Bool := after (step (s.withFetchWord 32 w)) f

/-- Inputs at rest. -/
def idle : ExternalEvent :=
  { xint := 0xFF, nmi := true, dmaRequest := 0, dmaStopped := 0, dmac := none, dmaStatus := [],
    writes := [] }

/-- The next input of a state. -/
def State.input (s : State) (e : ExternalEvent) : State :=
  { s with intc := { s.intc with events := [e] } }

/-- The type and subtype word of the newest fault record. -/
def recordWord (t : State) : Word := t.readWord (t.fp - 8)

/-! Ill-formed terms. -/

/-- Each check of `WellFormed.lean` refuses a term and allows its neighbour. -/
theorem test_ill_formed_refused :
    Instr.wellFormed (.addo (.reserved 4) (.reg 5) (.reg 6)) = false ∧
    Instr.wellFormed (.addo (.reg 4) (.sfr 3) (.reg 6)) = false ∧
    Instr.wellFormed (.addo (.reg 4) (.reg 5) (.sfr 3)) = false ∧
    Instr.wellFormed (.addo (.reg 4) (.sfr 2) (.sfr 2)) = true ∧
    Instr.wellFormed (.teste (.reserved 4)) = false ∧
    Instr.wellFormed (.cmpobe (.lit 4) (.sfr 3) 0 false) = false ∧
    Instr.wellFormed (.cmpobe (.lit 4) (.sfr 2) 0 false) = true ∧
    Instr.wellFormed (.atadd (.lit 4) (.reg 5) (.reg 6)) = false ∧
    Instr.wellFormed (.atmod (.reg 4) (.reg 5) (.reserved 6)) = false ∧
    Instr.wellFormed (.modpc (.reg 4) (.reg 5) (.reserved 6)) = false ∧
    Instr.wellFormed (.movl (.reg 3) (.reg 8)) = false ∧
    Instr.wellFormed (.movl (.reg 4) (.sfr 2)) = false ∧
    Instr.wellFormed (.movt (.reg 6) (.reg 8)) = false ∧
    Instr.wellFormed (.movq (.reg 8) (.sfr 0)) = false ∧
    Instr.wellFormed (.movq (.lit 8) (.reg 12)) = true ∧
    Instr.wellFormed (.ldl (.regInd 4) 5) = false ∧
    Instr.wellFormed (.stt 6 (.regInd 4)) = false ∧
    Instr.wellFormed (.ldq (.regInd 4) 8) = true ∧
    Instr.wellFormed (.emul (.reg 4) (.reg 5) (.reg 7)) = false ∧
    Instr.wellFormed (.ediv (.reg 4) (.reg 5) (.reg 8)) = false ∧
    Instr.wellFormed (.eshro (.reg 4) (.reg 5) (.reg 8)) = false := by
  decide

/-! Decoding. -/

/-- CTRL words, fields placed by `30_encoding.md` R164. -/
theorem test_decode_ctrl_1 :
    decode 0x08000100 0 = .ok (.b 0x40 false) ∧
    decode 0x09000100 0 = .ok (.call 0x40 false) ∧
    decode 0x0A000000 0 = .ok (.ret) ∧
    decode 0x0B000100 0 = .ok (.bal 0x40 false) ∧
    decode 0x10000100 0 = .ok (.bno 0x40 false) ∧
    decode 0x11000100 0 = .ok (.bg 0x40 false) ∧
    decode 0x12000100 0 = .ok (.be 0x40 false) ∧
    decode 0x13000100 0 = .ok (.bge 0x40 false) ∧
    decode 0x14000100 0 = .ok (.bl 0x40 false) ∧
    decode 0x15000100 0 = .ok (.bne 0x40 false) ∧
    decode 0x16000100 0 = .ok (.ble 0x40 false) ∧
    decode 0x17000100 0 = .ok (.bo 0x40 false) ∧
    decode 0x18000000 0 = .ok (.faultno) ∧
    decode 0x19000000 0 = .ok (.faultg) ∧
    decode 0x1A000000 0 = .ok (.faulte) ∧
    decode 0x1B000000 0 = .ok (.faultge) ∧
    decode 0x1C000000 0 = .ok (.faultl) := by
  decide

/-- CTRL words, fields placed by `30_encoding.md` R164. -/
theorem test_decode_ctrl_2 :
    decode 0x1D000000 0 = .ok (.faultne) ∧
    decode 0x1E000000 0 = .ok (.faultle) ∧
    decode 0x1F000000 0 = .ok (.faulto) := by
  decide

/-- COBR words, fields placed by `30_encoding.md` R163. -/
theorem test_decode_cobr_1 :
    decode 0x20C80000 0 = .ok (.testno (.reg 25)) ∧
    decode 0x21C80000 0 = .ok (.testg (.reg 25)) ∧
    decode 0x22C80000 0 = .ok (.teste (.reg 25)) ∧
    decode 0x23C80000 0 = .ok (.testge (.reg 25)) ∧
    decode 0x24C80000 0 = .ok (.testl (.reg 25)) ∧
    decode 0x25C80000 0 = .ok (.testne (.reg 25)) ∧
    decode 0x26C80000 0 = .ok (.testle (.reg 25)) ∧
    decode 0x27C80000 0 = .ok (.testo (.reg 25)) ∧
    decode 0x30214020 0 = .ok (.bbc (.reg 4) (.reg 5) 8 false) ∧
    decode 0x31214020 0 = .ok (.cmpobg (.reg 4) (.reg 5) 8 false) ∧
    decode 0x32214020 0 = .ok (.cmpobe (.reg 4) (.reg 5) 8 false) ∧
    decode 0x33214020 0 = .ok (.cmpobge (.reg 4) (.reg 5) 8 false) ∧
    decode 0x34214020 0 = .ok (.cmpobl (.reg 4) (.reg 5) 8 false) ∧
    decode 0x35214020 0 = .ok (.cmpobne (.reg 4) (.reg 5) 8 false) ∧
    decode 0x36214020 0 = .ok (.cmpoble (.reg 4) (.reg 5) 8 false) ∧
    decode 0x37214020 0 = .ok (.bbs (.reg 4) (.reg 5) 8 false) ∧
    decode 0x38214020 0 = .ok (.cmpibno (.reg 4) (.reg 5) 8 false) := by
  decide

/-- COBR words, fields placed by `30_encoding.md` R163. -/
theorem test_decode_cobr_2 :
    decode 0x39214020 0 = .ok (.cmpibg (.reg 4) (.reg 5) 8 false) ∧
    decode 0x3A214020 0 = .ok (.cmpibe (.reg 4) (.reg 5) 8 false) ∧
    decode 0x3B214020 0 = .ok (.cmpibge (.reg 4) (.reg 5) 8 false) ∧
    decode 0x3C214020 0 = .ok (.cmpibl (.reg 4) (.reg 5) 8 false) ∧
    decode 0x3D214020 0 = .ok (.cmpibne (.reg 4) (.reg 5) 8 false) ∧
    decode 0x3E214020 0 = .ok (.cmpible (.reg 4) (.reg 5) 8 false) ∧
    decode 0x3F214020 0 = .ok (.cmpibo (.reg 4) (.reg 5) 8 false) := by
  decide

/-- REG words, fields placed by `30_encoding.md` R162. -/
theorem test_decode_reg_1 :
    decode 0x58314004 0 = .ok (.notbit (.reg 4) (.reg 5) (.reg 6)) ∧
    decode 0x58314084 0 = .ok (.and (.reg 4) (.reg 5) (.reg 6)) ∧
    decode 0x58314104 0 = .ok (.andnot (.reg 4) (.reg 5) (.reg 6)) ∧
    decode 0x58314184 0 = .ok (.setbit (.reg 4) (.reg 5) (.reg 6)) ∧
    decode 0x58314204 0 = .ok (.notand (.reg 4) (.reg 5) (.reg 6)) ∧
    decode 0x58314304 0 = .ok (.xor (.reg 4) (.reg 5) (.reg 6)) ∧
    decode 0x58314384 0 = .ok (.or (.reg 4) (.reg 5) (.reg 6)) ∧
    decode 0x58314404 0 = .ok (.nor (.reg 4) (.reg 5) (.reg 6)) ∧
    decode 0x58314484 0 = .ok (.xnor (.reg 4) (.reg 5) (.reg 6)) ∧
    decode 0x58300504 0 = .ok (.not (.reg 4) (.reg 6)) ∧
    decode 0x58314584 0 = .ok (.ornot (.reg 4) (.reg 5) (.reg 6)) ∧
    decode 0x58314604 0 = .ok (.clrbit (.reg 4) (.reg 5) (.reg 6)) ∧
    decode 0x58314684 0 = .ok (.notor (.reg 4) (.reg 5) (.reg 6)) ∧
    decode 0x58314704 0 = .ok (.nand (.reg 4) (.reg 5) (.reg 6)) ∧
    decode 0x58314784 0 = .ok (.alterbit (.reg 4) (.reg 5) (.reg 6)) ∧
    decode 0x59314004 0 = .ok (.addo (.reg 4) (.reg 5) (.reg 6)) ∧
    decode 0x59314084 0 = .ok (.addi (.reg 4) (.reg 5) (.reg 6)) := by
  decide

/-- REG words, fields placed by `30_encoding.md` R162. -/
theorem test_decode_reg_2 :
    decode 0x59314104 0 = .ok (.subo (.reg 4) (.reg 5) (.reg 6)) ∧
    decode 0x59314184 0 = .ok (.subi (.reg 4) (.reg 5) (.reg 6)) ∧
    decode 0x59314404 0 = .ok (.shro (.reg 4) (.reg 5) (.reg 6)) ∧
    decode 0x59314504 0 = .ok (.shrdi (.reg 4) (.reg 5) (.reg 6)) ∧
    decode 0x59314584 0 = .ok (.shri (.reg 4) (.reg 5) (.reg 6)) ∧
    decode 0x59314604 0 = .ok (.shlo (.reg 4) (.reg 5) (.reg 6)) ∧
    decode 0x59314684 0 = .ok (.rotate (.reg 4) (.reg 5) (.reg 6)) ∧
    decode 0x59314704 0 = .ok (.shli (.reg 4) (.reg 5) (.reg 6)) ∧
    decode 0x5A014004 0 = .ok (.cmpo (.reg 4) (.reg 5)) ∧
    decode 0x5A014084 0 = .ok (.cmpi (.reg 4) (.reg 5)) ∧
    decode 0x5A014104 0 = .ok (.concmpo (.reg 4) (.reg 5)) ∧
    decode 0x5A014184 0 = .ok (.concmpi (.reg 4) (.reg 5)) ∧
    decode 0x5A314204 0 = .ok (.cmpinco (.reg 4) (.reg 5) (.reg 6)) ∧
    decode 0x5A314284 0 = .ok (.cmpinci (.reg 4) (.reg 5) (.reg 6)) ∧
    decode 0x5A314304 0 = .ok (.cmpdeco (.reg 4) (.reg 5) (.reg 6)) ∧
    decode 0x5A314384 0 = .ok (.cmpdeci (.reg 4) (.reg 5) (.reg 6)) ∧
    decode 0x5A014604 0 = .ok (.scanbyte (.reg 4) (.reg 5)) := by
  decide

/-- REG words, fields placed by `30_encoding.md` R162. -/
theorem test_decode_reg_3 :
    decode 0x5A014704 0 = .ok (.chkbit (.reg 4) (.reg 5)) ∧
    decode 0x5B314004 0 = .ok (.addc (.reg 4) (.reg 5) (.reg 6)) ∧
    decode 0x5B314104 0 = .ok (.subc (.reg 4) (.reg 5) (.reg 6)) ∧
    decode 0x5C300604 0 = .ok (.mov (.reg 4) (.reg 6)) ∧
    decode 0x5D314404 0 = .ok (.eshro (.reg 4) (.reg 5) (.reg 6)) ∧
    decode 0x5D300604 0 = .ok (.movl (.reg 4) (.reg 6)) ∧
    decode 0x5E300604 0 = .ok (.movt (.reg 4) (.reg 6)) ∧
    decode 0x5F300604 0 = .ok (.movq (.reg 4) (.reg 6)) ∧
    decode 0x61314004 0 = .ok (.atmod (.reg 4) (.reg 5) (.reg 6)) ∧
    decode 0x61314104 0 = .ok (.atadd (.reg 4) (.reg 5) (.reg 6)) ∧
    decode 0x63314004 0 = .ok (.sdma (.reg 4) (.reg 5) (.reg 6)) ∧
    decode 0x63000080 0 = .ok (.udma) ∧
    decode 0x64300004 0 = .ok (.spanbit (.reg 4) (.reg 6)) ∧
    decode 0x64300084 0 = .ok (.scanbit (.reg 4) (.reg 6)) ∧
    decode 0x64314284 0 = .ok (.modac (.reg 4) (.reg 5) (.reg 6)) ∧
    decode 0x65314004 0 = .ok (.modify (.reg 4) (.reg 5) (.reg 6)) ∧
    decode 0x65314084 0 = .ok (.extract (.reg 4) (.reg 5) (.reg 6)) := by
  decide

/-- REG words, fields placed by `30_encoding.md` R162. -/
theorem test_decode_reg_4 :
    decode 0x65314204 0 = .ok (.modtc (.reg 4) (.reg 5) (.reg 6)) ∧
    decode 0x65314284 0 = .ok (.modpc (.reg 4) (.reg 5) (.reg 6)) ∧
    decode 0x65314484 0 = .ok (.sysctl (.reg 4) (.reg 5) (.reg 6)) ∧
    decode 0x6600000C 0 = .ok (.calls (.reg 12)) ∧
    decode 0x66000580 0 = .ok (.mark) ∧
    decode 0x66000600 0 = .ok (.fmark) ∧
    decode 0x66000680 0 = .ok (.flushreg) ∧
    decode 0x66000780 0 = .ok (.syncf) ∧
    decode 0x67314004 0 = .ok (.emul (.reg 4) (.reg 5) (.reg 6)) ∧
    decode 0x67314084 0 = .ok (.ediv (.reg 4) (.reg 5) (.reg 6)) ∧
    decode 0x70314084 0 = .ok (.mulo (.reg 4) (.reg 5) (.reg 6)) ∧
    decode 0x70314404 0 = .ok (.remo (.reg 4) (.reg 5) (.reg 6)) ∧
    decode 0x70314584 0 = .ok (.divo (.reg 4) (.reg 5) (.reg 6)) ∧
    decode 0x74314084 0 = .ok (.muli (.reg 4) (.reg 5) (.reg 6)) ∧
    decode 0x74314404 0 = .ok (.remi (.reg 4) (.reg 5) (.reg 6)) ∧
    decode 0x74314484 0 = .ok (.modi (.reg 4) (.reg 5) (.reg 6)) ∧
    decode 0x74314584 0 = .ok (.divi (.reg 4) (.reg 5) (.reg 6)) := by
  decide

/-- MEM words, fields placed by `30_encoding.md` R165. -/
theorem test_decode_mem_1 :
    decode 0x80412010 0 = .ok (.ldob (.regOffset 4 0x10) 8) ∧
    decode 0x82412010 0 = .ok (.stob 8 (.regOffset 4 0x10)) ∧
    decode 0x84012010 0 = .ok (.bx (.regOffset 4 0x10)) ∧
    decode 0x85412010 0 = .ok (.balx (.regOffset 4 0x10) 8) ∧
    decode 0x86012010 0 = .ok (.callx (.regOffset 4 0x10)) ∧
    decode 0x88412010 0 = .ok (.ldos (.regOffset 4 0x10) 8) ∧
    decode 0x8A412010 0 = .ok (.stos 8 (.regOffset 4 0x10)) ∧
    decode 0x8C412010 0 = .ok (.lda (.regOffset 4 0x10) 8) ∧
    decode 0x90412010 0 = .ok (.ld (.regOffset 4 0x10) 8) ∧
    decode 0x92412010 0 = .ok (.st 8 (.regOffset 4 0x10)) ∧
    decode 0x98412010 0 = .ok (.ldl (.regOffset 4 0x10) 8) ∧
    decode 0x9A412010 0 = .ok (.stl 8 (.regOffset 4 0x10)) ∧
    decode 0xA0412010 0 = .ok (.ldt (.regOffset 4 0x10) 8) ∧
    decode 0xA2412010 0 = .ok (.stt 8 (.regOffset 4 0x10)) ∧
    decode 0xB0412010 0 = .ok (.ldq (.regOffset 4 0x10) 8) ∧
    decode 0xB2412010 0 = .ok (.stq 8 (.regOffset 4 0x10)) ∧
    decode 0xC0412010 0 = .ok (.ldib (.regOffset 4 0x10) 8) := by
  decide

/-- MEM words, fields placed by `30_encoding.md` R165. -/
theorem test_decode_mem_2 :
    decode 0xC2412010 0 = .ok (.stib 8 (.regOffset 4 0x10)) ∧
    decode 0xC8412010 0 = .ok (.ldis (.regOffset 4 0x10) 8) ∧
    decode 0xCA412010 0 = .ok (.stis 8 (.regOffset 4 0x10)) := by
  decide

/-- The nine addressing modes, words of `95_test_vectors.md` A3 and A13. -/
theorem test_decode_modes :
    decode 0x8020D000 0 = .ok (.ldob (.regInd 3) 4) ∧
    decode 0x9AB57400 0x2000 = .ok (.stl 22 (.regDisp 21 0x2000)) ∧
    decode 0xB0221D09 0 = .ok (.ldq (.regIndex 8 9 .x4) 4) ∧
    decode 0x929D3C95 0x2000 = .ok (.st 19 (.regIndexDisp 20 21 .x2 0x2000)) ∧
    decode 0xC868380C 0x2000 = .ok (.ldis (.indexDisp 12 .x1 0x2000) 13) ∧
    decode 0x92201400 0x10 = .ok (.st 4 (.ipDisp 0x10)) ∧
    decode 0x92A00800 0 = .ok (.st 20 (.absOffset 0x800)) ∧
    decode 0x92A03000 0x2000 = .ok (.st 20 (.absDisp 0x2000)) ∧
    decode 0x8C8E603A 0 = .ok (.lda (.regOffset 25 58) 17) := by
  decide

/-- Literals, special function registers, negative displacements and the prediction bit, words of
`95_test_vectors.md` A and B. -/
theorem test_decode_operands :
    decode 0x58AD098D 0 = .ok (.setbit (.lit 13) (.reg 20) (.reg 21)) ∧
    decode 0x58960897 0 = .ok (.and (.lit 0x17) (.reg 24) (.reg 18)) ∧
    decode 0x5C082E1F 0 = .ok (.mov (.lit 31) (.sfr 1)) ∧
    decode 0x5C800621 0 = .ok (.mov (.sfr 1) (.reg 16)) ∧
    decode 0x65003C92 0 = .ok (.sysctl (.lit 18) (.lit 0) (.lit 0)) ∧
    decode 0x3051A020 0 = .ok (.bbc (.lit 10) (.reg 6) 8 false) ∧
    decode 0x08000012 0 = .ok (.b 4 true) ∧
    decode 0x3E00FFF0 0 = .ok (.cmpible (.lit 0) (.reg 3) 0x7FC false) ∧
    decode 0x65A31885 0 = .ok (.extract (.lit 5) (.lit 12) (.reg 20)) := by
  decide

/-- Undefined words, `95_test_vectors.md` B30. -/
theorem test_decode_rejects :
    decode 0x00000000 0 = .error .undefinedOpcode ∧ decode 0x59944290 0 = .error .undefinedOpcode ∧
    decode 0x90291800 0 = .error .reservedMode ∧ decode 0x90291E84 0 = .error .reservedScale := by
  decide

/-! Single steps: the start and the end of each are a row of the vector lists of the spec. -/

/-- `95_test_vectors.md` B41: sums, their carry and overflow. -/
theorem test_sums :
    ran (State.regs base [(16, 1), (17, 0x7FFFFFFF)]) 0x59944090
      (fun t => t.getReg 18 == 0x80000000 && t.ac == 0x9100 && t.ip == 0x8004) ∧
    ran ((State.regs base [(16, 0x80000000), (17, 0x80000000)]).setCc 4) 0x5B944010
      (fun t => t.getReg 18 == 0 && t.cc == 3) ∧
    ran ((State.regs base [(16, 1), (17, 0)]).setCc 2) 0x5B944110
      (fun t => t.getReg 18 == 0xFFFFFFFF && t.cc == 0) := by
  decide

set_option maxRecDepth 8000 in
/-- `61_faults.md` R560 row 1: the overflow fault, its record and its frame. -/
theorem test_overflow_fault :
    ran (State.words (State.regs { base with ac := 0x8000, pctl := 0x001F0002 }
        [(24, 0x7FFFFFFF), (25, 1)]) [(0x4018, 0x6000)]) 0x59D64098
      (fun t => t.getReg 26 == 0x80000000 && t.fp == 0x3050 && t.readWord 0x3040 == 0x001F0002 &&
        t.readWord 0x3044 == 0x8000 && recordWord t == 0x00030001 && t.readWord 0x304C == 0x8000 &&
        t.pfp == 0x3001 && t.sp == 0x3090 && t.ip == 0x6000 && t.pctl == 0x001F0002) := by
  decide

/-- B41: products, quotients and remainders. -/
theorem test_products :
    ran (State.regs base [(16, 0xFFFFFFFF), (17, 0xFFFFFFFF)]) 0x67944010
      (fun t => t.getReg 18 == 1 && t.getReg 19 == 0xFFFFFFFE) ∧
    ran (State.regs base [(16, 2), (17, 0xFFFFFFF9)]) 0x74944590
      (fun t => t.getReg 18 == 0xFFFFFFFD) ∧
    ran (State.regs base [(16, 2), (17, 0xFFFFFFF9)]) 0x74944410
      (fun t => t.getReg 18 == 0xFFFFFFFF) ∧
    ran (State.regs base [(16, 0xFFFFFFFE), (17, 7)]) 0x74944490
      (fun t => t.getReg 18 == 0xFFFFFFFF) ∧
    ran (State.regs base [(16, 0x10), (20, 0x89ABCDEF), (21, 1)]) 0x67C50090
      (fun t => t.getReg 24 == 0xF && t.getReg 25 == 0x189ABCDE) ∧
    ran (State.words (State.regs base [(16, 0), (18, 9)]) []) 0x70944590
      (fun t => t.getReg 18 == 9 && recordWord t == 0x00030002) := by
  decide

/-- B41: shifts. -/
theorem test_shifts :
    ran (State.regs base [(16, 8), (17, 0xFF000000)]) 0x59944710
      (fun t => t.getReg 18 == 0x80000000 && t.ac == 0x9100) ∧
    ran (State.regs base [(16, 1), (17, 0xFFFFFFF9)]) 0x59944590
      (fun t => t.getReg 18 == 0xFFFFFFFC) ∧
    ran (State.regs base [(16, 1), (17, 0xFFFFFFF9)]) 0x59944510
      (fun t => t.getReg 18 == 0xFFFFFFFD) ∧
    ran (State.regs base [(16, 36), (17, 0x12345678)]) 0x59944690
      (fun t => t.getReg 18 == 0x23456781) ∧
    ran (State.regs base [(16, 35), (20, 0x12345678), (21, 0x9ABCDEF0)]) 0x5DC50410
      (fun t => t.getReg 24 == 0x02468ACF) := by
  decide

/-- B42: logic, bits and fields. -/
theorem test_bits :
    ran (State.regs base [(4, 0x0F0F3355), (5, 0x00FF5533)]) 0x58314204
      (fun t => t.getReg 6 == 0x0F002244) ∧
    ran ((State.regs base [(5, 0xFF)]).setCc 5) 0x58314F84 (fun t => t.getReg 6 == 0xEF) ∧
    ran (State.regs base [(4, 0x00012000)]) 0x64300084 (fun t => t.getReg 6 == 16 && t.cc == 2) ∧
    ran (State.regs base [(20, 0xABCDEF12)]) 0x65A31885 (fun t => t.getReg 20 == 0x0F78) ∧
    ran (State.regs base [(4, 0x00FF00FF), (5, 0x12345678), (6, 0xAAAAAAAA)]) 0x65314004
      (fun t => t.getReg 6 == 0xAA34AA78) ∧
    ran (State.regs base [(8, 0x00AB0011), (9, 0x11AB1100)]) 0x5A024608 (fun t => t.cc == 2) := by
  decide

/-- B43: compares, tests and branches. -/
theorem test_branches :
    ran (State.regs base [(4, 0xFFFFFFFF), (5, 1)]) 0x3121400C
      (fun t => t.cc == 1 && t.ip == 0x800C) ∧
    ran (State.regs base [(4, 0xFFFFFFFF), (5, 1)]) 0x3921400C
      (fun t => t.cc == 4 && t.ip == 0x8004) ∧
    ran (State.regs base [(4, 42), (6, 0x400)]) 0x37219000
      (fun t => t.cc == 2 && t.ip == 0x7000) ∧
    ran (base.setCc 0) 0x10000008 (fun t => t.ip == 0x8008) ∧
    ran (base.setCc 3) 0x08FFFFF0 (fun t => t.ip == 0x7FF0) ∧
    ran (State.regs base [(18, 0x3003)]) 0x85A49000
      (fun t => t.getReg 20 == 0x8004 && t.ip == 0x3000) ∧
    ran (base.setCc 4) 0x24C80000 (fun t => t.getReg 25 == 1) := by
  decide

/-- B40: loads and stores. -/
theorem test_memory :
    ran (State.regs (State.words base [(0x1000, 0xDEADBEEF)]) [(4, 0x1000)]) 0xC0292003
      (fun t => t.getReg 5 == 0xFFFFFFDE) ∧
    ran (State.regs (State.words base [(0x1000, 0x04030201), (0x1004, 0x08070605)]) [(4, 0x1000)])
      0x98311000 (fun t => t.getReg 6 == 0x04030201 && t.getReg 7 == 0x08070605) ∧
    ran (State.regs base [(18, 0x12345678), (4, 0x2000)]) 0x8A911000
      (fun t => t.readByte 0x2000 == 0x78 && t.readByte 0x2001 == 0x56 && t.readByte 0x2002 == 0) ∧
    ran (State.regs user [(18, 0x12345678), (4, 0x80)]) 0x92911000
      (fun t => t.readWord 0x80 == 0 && recordWord t == 0x000A0001) ∧
    ran (State.regs base [(18, 0xFF), (4, 0x2000)]) 0xC2911000
      (fun t => t.readByte 0x2000 == 0xFF && t.ac == 0x9100) := by
  decide

/-- `20_memory.md` R151: a word in a big-endian region. -/
theorem test_big_endian :
    ran (State.regs { base with ctrl := { base.ctrl with mcon := base.ctrl.mcon.set 2 0x00400000 } }
        [(18, 0x12345678), (4, 0x20002000)]) 0x92911000
      (fun t => t.readByte 0x20002000 == 0x12 && t.readByte 0x20002003 == 0x78) := by
  decide

/-- `44_call_return.md` R425 rows 1, 7, 13 and 14. -/
theorem test_calls :
    ran (State.regs base [(1, 0x3041)]) 0x09000100
      (fun t => t.ip == 0x8100 && t.pfp == 0x3000 && t.fp == 0x3050 && t.sp == 0x3090 &&
        t.rcache.length == 1) ∧
    ran (State.words { user with pctl := 0 } [(0x503C, 0x6002), (0x500C, 0x7001)]) 0x66000803
      (fun t => t.pctl == 3 && t.pfp == 0x3002 && t.fp == 0x7000 && t.sp == 0x7040 &&
        t.ip == 0x6000) ∧
    ran (base.setReg 0 0x2004) 0x0A000000 (fun t => recordWord t == 0x00020002) ∧
    ran (State.words (base.setReg 0 0x2001) [(0x2FF0, 0x001F2002), (0x2FF4, 0x1002)]) 0x0A000000
      (fun t => t.ac == 0x1002 && t.pctl == 0x001F2002 && t.fp == 0x2000) := by
  decide

set_option maxRecDepth 8000 in
/-- R560 rows 5, 8 and 10: privilege and special function registers. -/
theorem test_privilege :
    ran (State.words user [(0x4028, 0xE), (0x500C, 0x7001), (0x503C, 0x6102)]) 0x65210484
      (fun t => recordWord t == 0x00050002 && t.fp == 0x7010 && t.pctl == 0x00050003 &&
        t.ip == 0x6100) ∧
    ran user 0x5C200625 (fun t => recordWord t == 0x000A0001) ∧
    ran base 0x5C200625 (fun t => recordWord t == 0x00020004) ∧
    ran base 0x5C082E1F (fun t => t.intc.imsk == 31) := by
  decide

set_option maxRecDepth 8000 in
/-- `46_atomic_procmgmt.md` R475 rows 1, 2, 5, 9, 13 and 17. -/
theorem test_controls :
    ran (State.regs (State.words base [(0x2000, 0x10)]) [(8, 0x2002), (2, 0xFFFFFFFF)]) 0x61588108
      (fun t => t.readWord 0x2000 == 0xF && t.getReg 11 == 0x10) ∧
    ran (State.regs (State.words base [(0x3000, 0xAAAAAAAA)])
        [(21, 0x3000), (23, 0xFFFF), (26, 0x12345678)]) 0x61D5C015
      (fun t => t.readWord 0x3000 == 0xAAAA5678 && t.getReg 26 == 0xAAAAAAAA) ∧
    ran (State.regs { base with ac := 0x1002 } [(17, 7), (25, 4)]) 0x64E64291
      (fun t => t.ac == 0x1004 && t.getReg 28 == 0x1002) ∧
    ran (State.regs base [(25, 0x001F0000), (24, 0x00050000)]) 0x65C64299
      (fun t => t.pctl == 0x00052002 && t.getReg 24 == 0x001F2002) ∧
    ran (base.setReg 21 0x53) 0x65AD4495
      (fun t => t.readWord 0x10000 == 0x400 && t.readByte 0x1000E == 8 &&
        t.intc.swPriority == 10) ∧
    ran (State.words (base.setReg 4 0x406) [(0x7064, 2), (0x7068, 1)]) 0x65210484
      (fun t => t.tc == 2 && t.ctrl.bcon == 1) := by
  decide

/-- `20_memory.md` R109: where the requests of an access after the first begin, row by row (N15 for
the word at offset 1 and the triple at offset 1). -/
theorem test_split_accesses :
    let starts (o : Word) (n : Nat) : List Nat :=
      (List.range n).filter (startsRequest (0x1000 + o) n)
    starts 2 2 = [] ∧ starts 1 2 = [1] ∧ starts 0 4 = [] ∧ starts 1 4 = [1, 2, 3] ∧
    starts 0 8 = [] ∧ starts 1 8 = [1, 2, 3, 7] ∧ starts 2 8 = [1, 2, 6, 7] ∧
    starts 3 8 = [1, 5, 6, 7] ∧ starts 4 8 = [4] ∧
    starts 0 12 = [] ∧ starts 1 12 = [1, 2, 3, 7, 11] ∧ starts 2 12 = [1, 2, 6, 10, 11] ∧
    starts 3 12 = [1, 5, 9, 10, 11] ∧ starts 4 12 = [4, 8] ∧ starts 8 12 = [4, 8] ∧
    starts 0 16 = [] ∧ starts 1 16 = [1, 2, 3, 7, 11, 15] ∧ starts 2 16 = [1, 2, 6, 10, 14, 15] ∧
    starts 3 16 = [1, 5, 9, 13, 14, 15] ∧ starts 4 16 = [4, 8, 12] ∧ starts 8 16 = [8] := by
  decide

/-- R109 and R122: another agent changes memory between the byte requests of `ld 0(r4), r5` at 1001H,
not within the one request at 1000H. -/
theorem test_torn_load :
    let e := { idle with during := [[(0x1001, 0xBB), (0x1002, 0xAA)]] }
    ran (State.input (State.regs base [(4, 0x1001)]) e) 0x90291000
      (fun t => t.getReg 5 == 0xAA00 && t.readByte 0x1001 == 0xBB) ∧
    ran (State.input (State.regs base [(4, 0x1000)]) e) 0x90291000
      (fun t => t.getReg 5 == 0 && t.readByte 0x1001 == 0) := by
  decide

/-- R123 and `70_reset_and_hazards.md` R624(d): between the read and the write of `atadd` LOCK keeps
other masters out of the 16-byte block of the word, but not the DMA controller. -/
theorem test_locked :
    let s := State.input (State.regs (State.words base [(0x2000, 0x10)]) [(8, 0x2002), (2, 1)])
      { idle with during := [[(0x2004, 7), (0x2010, 9)]] }
    ran s 0x61588108
      (fun t => t.readWord 0x2000 == 0x11 && t.readByte 0x2004 == 0 && t.readByte 0x2010 == 9) ∧
    ran { s with dma := { s.dma with started := s.dma.started.set 1 true } } 0x61588108
      (fun t => t.readWord 0x2000 == 0x11 && t.readByte 0x2004 == 7) := by
  decide

/-- `70_reset_and_hazards.md` R631 rows 1 and 2, with INT_STACK_BASE 20004H. -/
theorem test_power_up :
    let b := { Boot.initial with tables := { Boot.initial.tables with intStackBase := 0x20004 } }
    let image : Memory := [(0x103E5, 0x9F)]
    let t := State.powerUp b image
    let u := State.powerUp b [(0x10001, 0x14), (0x103E5, 0x9F)]
    t.ip = 0x8000 ∧ t.pctl = 0x001F2002 ∧ t.ac = 0x1000 ∧ t.tc = 0 ∧ t.intc.imsk = 0 ∧
    t.ctrl.bcon = 1 ∧ t.readWord 0 = 0x9F00 ∧ t.intc.swPriority = 0 ∧ t.getReg 31 = 0x20010 ∧
    t.getReg 1 = 0x20050 ∧ t.rcache = [] ∧ u.intc.swPriority = 12 ∧ u.deliver = .quiet u := by
  decide

/-- `70_reset_and_hazards.md` R602 steps 4 and 5 in their order: with the interrupt table at 0 the pending
priorities are read where the NMI vector, here 8000 0002H, has just been written. -/
theorem test_init_order :
    (State.powerUp { Boot.initial with tables := { Boot.initial.tables with intTableBase := 0 } }
      [(0x0, 0x10), (0x3E4, 0x2), (0x3E7, 0x80)]).intc.swPriority = 31 := by
  decide

/-- R600 and R602 step 7: a reset with power on clears IMSK and keeps IPND. -/
theorem test_warm_reset :
    after (step (State.input { base with
        ip := 0x9000
        intc := { base.intc with ipnd := 4, imsk := 0xFF } } { idle with reset := true }))
      (fun t => t.ip == 0x8000 && t.pctl == 0x001F2002 && t.intc.ipnd == 4 && t.intc.imsk == 0) := by
  decide

/-- `61_faults.md` R555 and `30_encoding.md` R168: the instruction after `st r4, 10H(IP)`, two words in
data RAM, and after `mov`. -/
theorem test_next_in_data_ram :
    let s := { base with ip := 0x100 }
    s.nextIp 0x92201400 = 0x108 ∧ s.nextIp 0x5C200E01 = 0x104 := by
  decide

set_option maxRecDepth 8000 in
/-- `47_dma.md` R485 row 1, the third operand without data chaining, and `udma`. (Which words `sdma`
writes hangs on a bit that nothing fixes.) -/
theorem test_dma :
    ran user 0x6341C006 (fun t => recordWord t == 0x00050002) ∧
    ([.reg 8, .reg 6, .lit 8].map fun o : Src3 => (quadOperand o).four.invalid) =
      [false, true, true] ∧
    ran (State.words base [(0x40, 5)]) 0x63000080 (fun t => t.readWord 0x40 == 0) := by
  decide

/-- `62_tracing.md` R584 rows 1, 7, 11 and 12. -/
theorem test_tracing :
    ran { base with pctl := 0x001F0003, tc := 2 } 0x5C200E01
      (fun t => t.getReg 4 == 1 && t.tc == 0x00020002 && t.tfp && t.trace.traceIp == 0x8000) ∧
    ran { base with pctl := 0x001F0003, tc := 8 } 0x09000100
      (fun t => t.pfp == 0x3008 && t.tc == 0x00080008 && t.tfp) ∧
    ran { base with pctl := 0x001F0003 } 0x66000600 (fun t => t.tc == 0x00800000 && t.tfp) ∧
    ran { base with pctl := 0x001F0002 } 0x66000600 (fun t => t.tc == 0 && !t.tfp) := by
  decide

set_option maxRecDepth 8000 in
/-- `62_tracing.md` R584 rows 8 and 9: the prereturn-trace fault. Row 9 with a handler that has cleared
the event flags and the prereturn flag of its own frame before it returns (log 39), step by step: the
prereturn fault, with the flag of the frame cleared and the `ret` as RIP, its subtype 20H (for one of the
values of the fault IP), the handler's `ret`, the `ret` itself, and the return-trace fault of subtype 10H
before the instruction returned to. -/
theorem test_prereturn :
    let handled : List (Word × Word) := [(0x4008, 2), (0x5030, 0x6202)]
    let tracing : State := { base with pctl := 0x001F0003, tc := 0x38, ip := 0x9000 }
    ran (State.words ({ base with pctl := 0x001F0003, tc := 0x28 }.setReg 0 0x2008) handled) 0x0A000000
      (fun t => t.ip == 0x6200 && !t.te && t.tc &&& 0xFE0000 == 0x80000) ∧
    ran (State.words (tracing.setReg 0 0x2008) handled) 0x0A000000
      (fun t => t.ip == 0x6200 && !t.te && !t.tfp && t.tc == 0x00080038 &&
        t.rcache.all fun f => f.words.get 0 == 0x2000 && f.words.get 2 == 0x9000) ∧
    after (faultOutcome
        ((State.words { tracing with tc := tracing.tc ||| evPrereturn } handled).traceFault 0))
      (fun t => recordWord t == 0x00010020) ∧
    ran (State.words ({ base with pctl := 0x001F0002, tc := 0x38 }.setReg 0 0x2001)
        [(0x2FF0, 0x001F0003), (0x2008, 0x9000)]) 0x0A000000
      (fun t => t.ip == 0x9000 && t.te && !t.tfp && t.tc == 0x00100038) ∧
    ran (State.words { tracing with tc := 0x00100038 } [(0x2008, 0x9100)]) 0x0A000000
      (fun t => t.ip == 0x9100 && t.tfp && t.tc == 0x00100038) ∧
    after (step (State.words
        { tracing with ip := 0x9100, pctl := 0x001F0403, tc := 0x00100038 } handled))
      (fun t => recordWord t == 0x00010010 && t.ip == 0x6200) := by
  decide

set_option maxRecDepth 8000 in
/-- `62_tracing.md` R576: with trace enable clear the prereturn event sets TC.pf before the `ret`, which
sets PC.te (type 011b) or has a reserved type. -/
theorem test_prereturn_disabled :
    ran ({ base with tc := 0x28 }.setReg 0 0x200B) 0x0A000000
      (fun t => t.te && !t.tfp && t.tc == 0x00200028) ∧
    ran ({ base with tc := 0x28 }.setReg 0 0x200C) 0x0A000000
      (fun t => recordWord t == 0x00020002 && t.tc &&& 0x00200000 == 0x00200000) := by
  decide

set_option maxRecDepth 8000 in
/-- `60_exceptions.md` R527 rows 4, 7 and 10: a software, a dedicated and an expanded interrupt. -/
theorem test_interrupts :
    after (.next ((State.words { base with pctl := 0x00050002, ac := 0x1002, ip := 0x8010 }
        [(0x10150, 0x9000)]).enterInterrupt 0x53 .software))
      (fun t => t.fp == 0x20010 && t.readWord 0x20000 == 0x00050002 && t.readWord 0x20004 == 0x1002 &&
        t.readWord 0x20008 == 0x53 && t.pfp == 0x3007 && t.sp == 0x20050 &&
        t.pctl == 0x000A2002 && t.ip == 0x9000) ∧
    after (step (State.words { base with
        pctl := 0x000B0002
        ctrl := { base.ctrl with imap0 := 0x60, icon := 0x800 }
        intc := { base.intc with ipnd := 2, imsk := 2 } } [(0x1018C, 0x9000)]))
      (fun t => t.intc.ipnd == 0 && t.getReg 3 == 2 && t.intc.imsk == 0 && t.priority == 12 &&
        t.ip == 0x9000) ∧
    after (step (State.words { base with
        pctl := 0x00050002
        ctrl := { base.ctrl with icon := 1 }
        intc := { base.intc with xint := 0xAC, imsk := 1 } } [(0x10150, 0x9100)]))
      (fun t => t.ip == 0x9100 && t.intc.imsk == 1 && t.getReg 3 == 1) := by
  decide

set_option maxRecDepth 8000 in
/-- R527 row 14: the NMI. -/
theorem test_nmi :
    after (step (State.input (State.words { base with
        ctrl := { base.ctrl with icon := 0x400 } } [(0, 0x9700)]) { idle with nmi := false }))
      (fun t => t.ip == 0x9700 && t.priority == 31 && t.intc.nmiDepth == some 1 &&
        recordWord t == 248) := by
  decide

/-! Witnesses: states and operands that meet the hypotheses of the statements. -/

/-- A register operand and a literal in any mode, special function registers in supervisor mode. -/
def x1 : Src := .reg 4
/-- An even-numbered register. -/
def x2 : Src := .reg 6
/-- A register number that is a multiple of 4. -/
def x4 : Src := .reg 8
/-- A destination that is a multiple of 4. -/
def d4 : Dst := .reg 12

theorem witness_DecodedOpcode :
    decode 0x58314084 0 = .ok (.and (.reg 4) (.reg 5) (.reg 6)) ∧ 0x40 ≤ opByte 0x58314084 ∧
    opByte 0x58314084 < 0x80 := by
  decide

theorem witness_ReservedAddressingRejected :
    opByte 0x90291800 = 0x90 ∧ (0x90291800#32).extractLsb' 10 4 = 6 ∧
    (0x90291E84#32).extractLsb' 10 4 = 7 ∧ 4 < ((0x90291E84#32).extractLsb' 7 3).toNat ∧
    (0x90293A84#32).extractLsb' 10 4 = 14 ∧ 4 < ((0x90293A84#32).extractLsb' 7 3).toNat ∧
    (0x90293F84#32).extractLsb' 10 4 = 15 ∧ 4 < ((0x90293F84#32).extractLsb' 7 3).toNat ∧
    [0x90291000, 0x90291780, 0x90293000, 0x90293780].all (fun w : Word =>
      w.extractLsb' 10 4 ∈ [4#4, 5, 12, 13]) = true ∧
    (let s := base.withFetchWord 32 0x90291E84
     0x400 ≤ s.ip.toNat ∧ decode s.fetch.word s.fetch.second = .error .reservedScale) := by
  decide

/-- A state with `mov 1, r4` at the instruction pointer. -/
def ready : State := base.withFetchWord 32 0x5C200E01

/-- The hypotheses of `StepRunsInstruction` on the state `t` that runs the instruction. -/
def runsMov (t : State) : Bool :=
  !t.tfp && !inDataRam t.ip && !t.icache.fetchingLocked &&
    t.icache.image.readWord (t.bigEndian t.ip) t.ip == t.readWord t.ip &&
    t.icache.image.readWord (t.bigEndian (t.ip + 4)) (t.ip + 4) == t.readWord (t.ip + 4) &&
    decide (decode (t.readWord t.ip)
      (if hasSecondWord (t.readWord t.ip) then t.readWord (t.ip + 4) else 0) =
        .ok (.mov (.lit 1) (.reg 4)))

theorem witness_StepRunsInstruction :
    ready.resetDue = false ∧ ready.tables.aligned = true ∧
    ready.sampleInputs.nmiReady = false ∧ ready.sampleInputs.intc.nmiDepth = none ∧
    ready.sampleInputs.intMode ≠ 3 ∧ ready.sampleInputs.deliver = .quiet ready.sampleInputs ∧
    runsMov ready.sampleInputs = true := by
  decide

theorem witness_StepRunsInstruction_in_nmi :
    (let s := { ready with intc := { ready.intc with nmiDepth := some 0 } }
     s.resetDue = false ∧ s.tables.aligned = true ∧
       s.sampleInputs.nmiReady = false ∧ s.sampleInputs.intc.nmiDepth.isSome = true ∧
       runsMov s.sampleInputs = true) := by
  decide

theorem witness_QuietInputs :
    base.intc.events = [] ∧ base.intc.xint = 0xFF ∧ base.intc.ipnd &&& base.intc.imsk = 0 ∧
    base.intc.swPriority = 0 ∧ base.turns = [] ∧
    ({ base.tables with sptBase := 0x5002 }.sptBase &&& 3 ≠ 0) ∧
    ({ base.tables with ctrlTableBase := 0x7008 }.ctrlTableBase &&& 15 ≠ 0) := by
  decide

/-- A reset is due, with and without writes of other bus masters before it. -/
theorem witness_ResetState :
    [{ idle with reset := true }, { idle with reset := true, writes := [(0x103E5, 0x9F)] }].all
      (fun e => (State.input base e).resetDue && isNext (step (State.input base e))) = true := by
  decide

/-- The instruction pointer at the last word of internal data RAM. -/
def inRam : State := { base with ip := 0x3FC }

theorem witness_FetchFromDataRam :
    inRam.ip.toNat < 0x400 ∧ inRam.mem.wf = true ∧
    (after inRam.runNext fun t => t.fp != 0) = true ∧ base.untraced = true ∧ inRam.ip &&& 3 = 0 ∧
    (base.ip.toNat : Int) + 4 * (0x3FE0FF#22).toInt = inRam.ip.toNat ∧
    base.address base.ip (.absDisp inRam.ip) = inRam.ip := by
  decide

theorem witness_UndefinedOpcodes :
    inDataRam base.ip = false ∧
    decode base.fetch.word base.fetch.second = .error .undefinedOpcode ∧
    inRam.ip.toNat < 0x400 := by
  decide

theorem witness_StepKeepsInvariant : ready.Inv = true ∧ isNext (step ready) = true := by
  decide

theorem witness_ByteOrderOfReads :
    base.ctrl.bcon.getLsbD 0 = true ∧ base.bigEndian 0x8000 = false ∧
    (let s := { base with
        ctrl := { base.ctrl with bcon := 0, mcon := base.ctrl.mcon.set 0 0x00400000 } }
     s.ctrl.bcon.getLsbD 0 = false ∧ s.bigEndian 0xFFFFFFFF = true) := by
  decide

/-- Other agents are about to write between the requests of the instruction. -/
def contested : State := { base with turns := [[(0x1002, 0xAA)], [(0x1003, 0xBB), (0x80, 1)]] }

/-- `62_tracing.md` R585: other agents have no turn in the entry of a fault that is found before the
instruction executes (step 5), and one in that of a division by zero (step 7). -/
theorem test_turns_of_entries :
    after { contested with ip := 0x3FC }.runNext (fun t => t.readByte 0x1002 == 0) = true ∧
    after (exec (.divo (.lit 0) (.lit 1) (.reg 4)) contested)
      (fun t => t.readByte 0x1002 == 0xAA) = true := by
  decide

/-- Unaligned addresses without FAULT_ON_UNALIGNED, and the top of the address space. -/
theorem witness_LoadResults :
    base.untraced = true ∧ base.mem.wf = true ∧
    [4, 2].all (base.canAccess 0x1001) = true ∧
    [4, 2].all (base.canAccess 0xFFFFFFF0) = true ∧ [4, 2].all (base.whole 0x1001) = true ∧
    [4, 2].all (contested.whole 0x1004) = true ∧ [4, 2].all (contested.whole 0x1001) = false ∧
    contested.untraced = true ∧ [4, 2].all (contested.canAccess 0x1001) = true ∧
    (0x1001#32).toNat % 4 ≠ 0 ∧ (0x1001#32).toNat % 2 ≠ 0 := by
  decide

theorem witness_GroupResults :
    base.untraced = true ∧ base.mem.wf = true ∧
    [8, 12, 16].all (base.canAccess 0x1001) = true ∧
    [8, 12, 16].all (base.canAccess 0xFFFFFFF0) = true ∧
    [8, 12, 16].all (base.canStore 0) = true ∧
    [8, 12, 16].all (user.canStore 0x100) = true ∧
    [8, 12, 16].all (base.whole 0x1001) = true ∧ [8, 12, 16].all (contested.whole 0x1000) = true ∧
    contested.untraced = true ∧ [8, 12, 16].all (contested.canStore 0x1001) = true ∧
    (30#5).toNat % 2 = 0 ∧ (28#5).toNat % 4 = 0 ∧ 3 < [x1, x1, x1, x1].length := by
  decide

theorem witness_StoreResults :
    base.untraced = true ∧ base.mem.wf = true ∧ base.om = true ∧
    [1, 2, 4].all (base.canStore 0) = true ∧
    [1, 2, 4].all (user.canStore 0x100) = true ∧
    [1, 2, 4].all (user.canStore 0xFFFFFFF0) = true ∧
    [2, 4].all (base.whole 0x1001) = true ∧ [2, 4].all (contested.canStore 0x1001) = true ∧
    ¬(-128 ≤ (0x80#32).toInt ∧ (0x80#32).toInt ≤ 127) ∧
    ¬(-32768 ≤ (0x8000#32).toInt ∧ (0x8000#32).toInt ≤ 32767) := by
  decide

theorem witness_StoreFrame :
    (0#5).toNat % 4 = 0 ∧
    [Instr.st 8 (.regInd 1), .stob 8 (.regInd 1), .stos 8 (.regInd 1), .stib 8 (.regInd 1),
      .stis 8 (.regInd 1), .stl 8 (.regInd 1), .stt 8 (.regInd 1), .stq 8 (.regInd 1)].all
        (fun i => isNext (exec i base)) = true ∧
    [4, 1, 2, 8, 12, 16].all (base.canStore (base.address base.ip (.regInd 1))) = true ∧
    [4, 1, 2, 8, 12, 16].all (base.whole (base.address base.ip (.regInd 1))) = true := by
  decide

theorem witness_AccessFaults :
    (let s := { base with config := { base.config with faultOnUnaligned := true } }
     s.config.faultOnUnaligned = true ∧
       [4, 2, 8, 12, 16].all (fun n => (0x1001#32).toNat % naturalBoundary n != 0) = true) ∧
    (let s := { base with ctrl := { base.ctrl with mcon := base.ctrl.mcon.set 0 0x00400000 } }
     s.config.faultOnUnaligned = false ∧ s.bigEndian 0x1001 = true) ∧
    [1, 2, 4, 8, 12, 16].all (fun n => user.canAccess 0x80 n && user.protectedRange 0x80 n) = true ∧
    user.em = false ∧ (5#5).toNat % 2 ≠ 0 ∧ (6#5).toNat % 4 ≠ 0 := by
  decide

/-- The operands of every statement on REG instructions, in both modes, at the last register and at the
last special function register. -/
theorem witness_operands :
    base.untraced = true ∧ user.untraced = true ∧
    [base, user].all (fun s => s.canUseAll [(srcOperand x1).one, (srcOperand (.lit 31)).one,
      (dstOperand (.reg 31)).one]) = true ∧
    base.canUseAll [(srcOperand (.sfr 2)).one, (srcOperand (.sfr 0)).one,
      (dstOperand (.sfr 2)).one] = true ∧
    [base, user].all (fun s => s.canUseAll [(srcOperand x1).one, (srcOperand x2).two,
      (dstOperand (.reg 30)).two]) = true ∧
    [base, user].all (fun s => s.canUseAll [(srcOperand x4).three, (dstOperand d4).three]) = true ∧
    [base, user].all (fun s => s.canUseAll [(srcOperand x4).four,
      (dstOperand (.reg 28)).four]) = true ∧
    base.canUseAll [(srcOperand (.sfr 0)).two, (dstOperand (.sfr 0)).two] = true ∧
    base.canUseAll [(srcOperand (.lit 1)).four, (dstOperand d4).four] = true ∧
    [base, user].all (fun s => s.canUseAll [(csrc1Operand (.lit 4)).one,
      (csrc2Operand (.reg 5)).one]) = true ∧
    base.canUseAll [(csrc1Operand (.reg 4)).one, (csrc2Operand (.sfr 2)).one] = true ∧
    base.canUseAll [(addressOperand x1).one, (srcOperand x2).one, (dstOperand d4).one] = true ∧
    base.canUseAll [(srcOperand x1).one, (srcOperand x2).one, (src3Operand (.lit 0)).one] = true ∧
    base.canUseAll [(srcOperand x1).one, (srcOperand x2).one, (src3Operand (.reg 8)).four] =
      true := by
  decide

/-- The frame of each statement holds of instructions that complete. -/
theorem witness_frames :
    base.om = true ∧
    ([Instr.and, Instr.shrdi, Instr.rotate, Instr.addi, Instr.shli, Instr.addc, Instr.cmpdeci,
        Instr.modac].all fun f => isNext (exec (f x1 (.lit 3) (.reg 6)) base)) = true ∧
    ([Instr.divo, Instr.remo, Instr.modi, Instr.divi, Instr.remi].all fun f =>
      isNext (exec (f (.lit 3) x1 (.reg 6)) base)) = true ∧
    base.value (srcOperand (.lit 3)) 0 ≠ 0 ∧
    ([Instr.ldq (.regInd 1) 8, .movq x4 d4, .emul x1 x2 d4, .ediv (.lit 3) x2 d4, .eshro x1 x2 d4,
        .scanbit x1 d4, .extract x1 x2 (.reg 6), .testno (.reg 6), .cmpo x1 x2, .chkbit x1 x2,
        .cmpobe (.reg 4) (.reg 5) 8 false, .bno 4 false, .b 4 false, .bx (.regInd 1),
        .bal 4 false, .balx (.regInd 1) 6].all fun i => isNext (exec i base)) = true := by
  decide

theorem witness_FieldResults :
    (0x00012000#32).getLsbD 16 = true ∧ (0x7FFFFFFF#32).getLsbD 31 = false ∧
    (0x00012000#32) >>> 17 = 0 := by
  decide

theorem witness_ShiftIntegerResults :
    (let n := min (8#32).toNat 32
     let y := (0xFF000000#32).toInt
     n = 8 ∧ y * 2 ^ 7 = -(2 ^ 31) ∧ y * 2 ^ 8 < -(2 ^ 31)) := by
  decide

theorem witness_DivisionResults :
    (State.regs base [(4, 0xFFFFFFFF), (6, 0x80000000)]).value (srcOperand x1) 0 = 0xFFFFFFFF ∧
    (State.regs base [(4, 0xFFFFFFFF), (6, 0x80000000)]).value (srcOperand x2) 0 = 0x80000000 ∧
    base.value (srcOperand (.lit 0)) 0 = 0 := by
  decide

/-- `ediv` with a quotient that does not fit and one that does. -/
theorem witness_ExtendedResults :
    2 ^ 32 ≤ (1 * 2 ^ 32 + 5) / 1 ∧ (1 * 2 ^ 32 + 5) / 3 < 2 ^ 32 := by
  decide

/-- A register cache of n sets with frames 100H bytes apart from 4000H on. -/
def cached (n : Nat) : List SavedSet :=
  (List.range n).map fun k => ⟨BitVec.ofNat 32 (0x4000 + 0x100 * k), Vector.replicate 16 7⟩

/-- A state whose register cache holds k sets and has room for n. -/
def caching (s : State) (k n : Nat) : State :=
  { s with rcache := cached k, config := { s.config with regcacheSets := n } }

/-- A full cache that user mode cannot spill: its oldest frame is at 80H. -/
def unspillable (s : State) : State :=
  { s with rcache := ⟨0x80, Vector.replicate 16 7⟩ :: cached 4 }

/-- Caches with room and full ones, spilled in supervisor mode; not spilled in user mode to frame 80H. -/
theorem witness_CallResults :
    base.untraced = true ∧ base.canSpill = true ∧ base.turns = [] ∧ base.mem.wf = true ∧
    [(0, 1), (1, 1), (4, 5), (5, 5), (5, 6), (14, 15), (15, 15)].all (fun p =>
      [base, user].all fun s => (caching s p.1 p.2).canSpill && (caching s p.1 p.2).untraced) = true ∧
    (unspillable user).canSpill = false ∧ (unspillable user).untraced = true := by
  decide

theorem witness_SpilledSet :
    [1, 5, 6, 15].all (fun n =>
      let s := caching base n n
      s.untraced && s.mem.wf && s.turns.isEmpty && !s.cachedSets.isEmpty && s.canSpill &&
        s.rcache.length == s.config.regcacheSets && decide (s.config.regcacheSets ≤ 15) &&
        (s.cachedSets.head?.map SavedSet.frame) == some 0x4000) = true := by
  decide

/-- System calls: numbers 259 and 260, a local and a supervisor entry. -/
def sysTable : State := State.words base
  [(0x540C + 48, 0x6002), (0x503C, 0x6102), (0x5038, 0x6200), (0x500C, 0x7001)]

set_option maxRecDepth 8000 in
theorem witness_SystemCallResults :
    sysTable.untraced = true ∧ sysTable.canUseAll [(srcOperand (.lit 3)).one] = true ∧
    (State.regs base [(4, 260)]).value (srcOperand x1) 0 = 260 ∧
    (sysTable.readWord (sysTable.tables.sptBase + 48 + 4 * 3)).getLsbD 1 = true ∧
    (sysTable.readWord (sysTable.tables.sptBase + 48 + 4 * 2)).getLsbD 1 = false ∧
    (sysTable.readWord (sysTable.tables.sptBase + 48 + 4 * 259)).getLsbD 1 = true ∧
    { sysTable with pctl := 0x00050000 }.em = false ∧ sysTable.canSpill = true ∧
    (unspillable { sysTable with pctl := 0x00050000 }).canSpill = false := by
  decide

/-- Return types 0, 1, 2, 3, 7 and the reserved ones, with an empty cache, with one that holds a set on
chip and with one that holds a set in data RAM. -/
theorem witness_ReturnResults :
    ([0x2000, 0x2001, 0x2002, 0x2003, 0x2004, 0x2005, 0x2006, 0x2007].map fun w : Word =>
      ((base.setReg 0 w).pfp &&& 7).toNat) = [0, 1, 2, 3, 4, 5, 6, 7] ∧
    base.untraced = true ∧ base.turns = [] ∧
    base.rcache = [] ∧ (cached 5).length ≤ 5 ∧ 5 < (cached 6).length ∧
    (cached 5).getLast?.isSome = true := by
  decide

theorem witness_FlushResults :
    [5, 15].all (fun n =>
      let s := caching user n 15
      s.untraced && s.mem.wf && s.turns.isEmpty &&
        s.cachedSets.all (fun c => !s.protectedRange c.frame 64) &&
        decide (s.cachedSets.Pairwise fun c d => 64 ≤ (d.frame - c.frame).toNat ∧
          64 ≤ (c.frame - d.frame).toNat)) = true ∧
    (unspillable user).em = false ∧
    (unspillable user).cachedSets.any (fun c => user.protectedRange c.frame 64) = true := by
  decide

set_option maxRecDepth 8000 in
theorem witness_CallThenReturn :
    base.untraced = true ∧ base.turns = [] ∧ base.rcache.length < 5 ∧
    base.rcache.length < base.config.regcacheSets ∧ base.fp &&& 15 = 0 ∧ base.ip &&& 3 = 0 ∧
    isNext (exec (.call 16 false) base) = true ∧ isNext (exec (.callx (.regInd 4)) base) = true ∧
    isNext (exec (.calls (.lit 3)) { sysTable with pctl := 0x00050000 }) = true := by
  decide

/-- Every mode of TC with tracing enabled and disabled, a matching instruction breakpoint, an enabled
data breakpoint register, and a prereturn event that only sets its flag. -/
theorem witness_TraceEvents :
    base.trace.tcDelay.left = 0 ∧ base.trace.teDelay.left = 0 ∧ base.ctrl.bpcon = 0 ∧
    base.ctrl.ipb0.getLsbD 0 = false ∧ base.ctrl.ipb1.getLsbD 0 = false ∧ base.canSpill = true ∧
    (let s := { base with tc := 0xFE, pctl := 0x001F2003, ctrl := { base.ctrl with ipb0 := 0x8001 } }
     s.ip &&& 3 = 0 ∧ s.ctrl.ipb0 = s.ip ||| 1 ∧ s.tc.getLsbD 7 = true ∧ s.tc.getLsbD 1 = true ∧
       s.te = true) ∧
    (let s := { base with tc := 0xFE }.setReg 0 0x200B
     s.te = false ∧ s.pfp.getLsbD 3 = true ∧ s.tc.getLsbD 5 = true ∧ (s.pfp &&& 7).toNat = 3) ∧
    [4, 1].all (base.canAccess 0x1000) = true ∧ base.whole 0x1000 4 = true ∧
    base.canStore 0x1000 4 = true := by
  decide

set_option maxRecDepth 8000 in
theorem witness_PendingTraceFault :
    (let s := { base with pctl := 0x001F2403, tc := 0x00020002 }
     s.tfp = true ∧ s.te = true ∧ s.mem.wf = true ∧ s.tc.getLsbD 3 = false ∧
       (s.faultTarget (.trace 0)).isSome = true) ∧
    { base with pctl := 0x001F2402 }.te = false ∧
    (let s := { base with pctl := 0x001F2003, tc := 0x20 }.setReg 0 0x2008
     s.pfp.getLsbD 3 = true ∧ s.tc.getLsbD 5 = true ∧ s.te = true ∧ s.trace.tcDelay.left = 0 ∧
       s.trace.teDelay.left = 0 ∧ isNext (exec .ret s) = true) := by
  decide

theorem witness_AtomicResults :
    base.canStore 0 4 = true ∧ user.canStore 0x100 4 = true ∧ user.canStore 0xFC 4 = false ∧
    base.turns = [] ∧ contested.mem.wf = true ∧ contested.untraced = true ∧
    (∀ c : Fin 4, contested.dma.started.get c = false) ∧
    (0x100F#32) &&& 0xFFFFFFF0 = 0x1000 := by
  decide

/-- `modtc` without a mode, with one and with instruction trace; `modpc` with and without a mask, in user
mode, with a reserved bit and with a lower priority. -/
theorem witness_ControlsModified :
    underMask 0x82 0x00 base.tc &&& 0xFE = 0 ∧ underMask 0x82 0x80 base.tc &&& 0xFE ≠ 0 ∧
    (underMask 0x82 0x80 base.tc).getLsbD 1 = false ∧
    (underMask 0x82 0x02 base.tc).getLsbD 1 = true ∧ user.em = false ∧ base.em = true ∧
    (underMask 4 4 base.pctl ^^^ base.pctl) &&& 0xFFE0DBFC ≠ 0 ∧
    (underMask 0x001F0000 0x00050000 base.pctl ^^^ base.pctl) &&& 0xFFE0DBFC = 0 ∧
    (underMask 0x001F0000 0x00050000 base.pctl).extractLsb' 16 5 < base.priority := by
  decide

/-- Every message of `sysctl` with its fields at their bounds. -/
theorem witness_SystemControl :
    base.em = true ∧
    ([0x007, 0x008, 0x100, 0x200, 0x201, 0x203, 0x202, 0x204, 0x206, 0x300, 0x400, 0x405, 0x406,
        0x407, 0x500].map fun w : Word =>
      ((State.regs base [(4, w)]).value (srcOperand x1) 0).extractLsb' 8 8) =
      [0, 0, 1, 2, 2, 2, 2, 2, 2, 3, 4, 4, 4, 4, 5] ∧
    (0x400#32) &&& 15 = 0 ∧ 0x400 ≤ (0x400#32).toNat ∧ (0x408#32) &&& 15 ≠ 0 ∧
    (0x3F0#32).toNat < 0x400 := by
  decide

theorem witness_DmaResults :
    base.dma.started.get 3 = false ∧ base.mem.wf = true ∧
    { base with dma := { base.dma with started := Vector.replicate 4 true } }.dma.started.get 3 =
      true ∧
    [(srcOperand x1).one, (srcOperand x2).one, (src3Operand (.reg 8)).one].all base.canUse = true ∧
    (8#5).toNat % 4 = 0 ∧ (6#5).toNat % 4 ≠ 0 ∧ base.em = true ∧ base.untraced = true := by
  decide

/-- Whatever bit and value select data chaining, one of these control words does and one does not. -/
theorem witness_DmaResults_chaining : chaining 0 = !chaining 0xFFFFFFFF := by
  have h : ∀ k : Fin 32, (0 : Word).getLsbD k.val = false ∧
      (0xFFFFFFFF : Word).getLsbD k.val = true := by
    decide
  unfold chaining
  rw [(h _).1, (h _).2]
  cases Config.dmaChainingValue <;> rfl

theorem witness_OperandFaults :
    user.em = false ∧
    [(srcOperand (.sfr 0)).one, (srcOperand x2).one, (dstOperand d4).one].any Use.isSfr = true ∧
    [(srcOperand x1).one, (srcOperand (.sfr 3)).one, (dstOperand d4).one].any Use.invalid = true ∧
    [(srcOperand (.reserved 4)).one, (srcOperand x2).one, (dstOperand d4).one].any Use.isSfr =
      false ∧
    [(srcOperand (.reserved 4)).one, (srcOperand x2).one, (dstOperand d4).one].any Use.invalid =
      true ∧
    [(srcOperand x2).two, (dstOperand (.reg 7)).two].any Use.invalid = true ∧
    [(srcOperand x4).four, (dstOperand (.sfr 0)).four].any Use.invalid = true ∧
    [(updOperand (.reserved 6)).one].any Use.invalid = true ∧
    [(addressOperand (.lit 4)).one].any Use.invalid = true ∧
    [(csrc1Operand (.lit 4)).one, (csrc2Operand (.sfr 3)).one].any Use.invalid = true ∧
    [(csrc1Operand (.lit 4)).one, (csrc2Operand (.sfr 0)).one].any Use.isSfr = true ∧
    base.em = true := by
  decide

set_option maxRecDepth 8000 in
/-- Fault-table entries of the four kinds: local, system-local, system-supervisor, number 260. -/
theorem witness_FaultEntry :
    (let s := State.words sysTable [(0x4010, 0x6000), (0x4018, 0xA), (0x4028, 0xE), (0x4038, 0x412)]
     s.mem.wf = true ∧ s.tc.getLsbD 3 = false ∧
       (s.readWord (s.tables.faultTableBase + 8 * 2)).getLsbD 1 = false ∧
       s.readWord (s.tables.faultTableBase + 8 * 3) = 0xA ∧
       (s.readWord (s.tables.sptBase + 48 + 4 * (0xA >>> 2))).getLsbD 1 = false ∧
       s.readWord (s.tables.faultTableBase + 8 * 5) = 0xE ∧
       (s.readWord (s.tables.sptBase + 48 + 4 * (0xE >>> 2))).getLsbD 1 = true ∧
       s.readWord (s.tables.faultTableBase + 8 * 7) = 0x412 ∧ 259 < (0x412#32 >>> 2).toNat) := by
  decide

/-- Vector 82, on and off the interrupt stack, from the table and from data RAM, with the mask kept and
cleared: an entry of each kind is at the handler. -/
theorem witness_InterruptEntry :
    [0x00052002, 0x00050000].all (fun pc => [0, 0x1800, 0x2000, 0x3800].all fun ic =>
      let s := State.words { base with pctl := pc, ctrl := { base.ctrl with icon := ic } }
        [(0, 0x9700), (0x14, 0x9200), (0x1014C, 0x9100)]
      s.mem.wf && !s.tc.getLsbD 3 &&
        [(InterruptKind.software, 0x9100), (.dedicated, 0x9100), (.expanded, 0x9100),
          (.nmi, (0x9700 : Word))].all fun k => (s.enterInterrupt 82 k.1).ip ==
            if k.1 != .nmi && ic.getLsbD 13 then 0x9200 else k.2) = true := by
  decide

theorem witness_HandlerReturns :
    base.untraced = true ∧ base.turns = [] ∧ base.mem.wf = true ∧ base.rcache.length < 5 ∧
    base.rcache.length < base.config.regcacheSets ∧ base.fp &&& 15 = 0 ∧
    (base.faultTarget .zeroDivide).isSome = true ∧ (user.faultTarget .zeroDivide).isSome = true := by
  decide

/-- Vectors 83 and 87 posted. -/
def posted : State := State.words { base with pctl := 0x00050002 } [(0x10000, 0x400), (0x1000C, 0x880000)]

/-- `20_memory.md` R123: while an interrupt is posted in a table at 10004H other bus masters cannot write
at 10001H, in the 16-byte block of its first word, and can at 0FFFFH. -/
theorem test_post_locks_block :
    let s := { base with
      tables := { base.tables with intTableBase := 0x10004 }
      turns := [[(0xFFFF, 1), (0x10001, 1)]] }
    (s.postInTable 83).readByte 0x10001 = 0 ∧ (s.postInTable 83).readByte 0xFFFF = 1 ∧
    (s.postInTable 83).readWord 0x10004 = 0x400 := by
  decide

theorem witness_SoftwareInterrupts :
    posted.mem.wf = true ∧ posted.turns = [] ∧
    (∀ c : Fin 4, contested.dma.started.get c = false) ∧ contested.mem.wf = true ∧
    (posted.readWord posted.tables.intTableBase).getLsbD 10 = true ∧
    (∀ m : BitVec 5, 10 < m →
      (posted.readWord posted.tables.intTableBase).getLsbD m.toNat = false) ∧
    posted.priority < 10 ∧ (posted.readByte 0x1000E).getLsbD 7 = true ∧
    posted.tables.intTableBase + 4 + (10#5).zeroExtend 32 = 0x1000E := by
  decide

/-- Dedicated, expanded and mixed mode; a level and an edge; software and hardware requests of a higher,
the same and a lower priority; two sources of one vector. -/
theorem witness_HardwareDelivery :
    (let s := { base with
        pctl := 0x00050002
        ctrl := { base.ctrl with imap0 := 0x660 }
        intc := { base.intc with ipnd := 6, imsk := 6 } }
     s.requests 1 = true ∧ s.requests 2 = true ∧ s.hardwareVector = 98 ∧ s.priority < 12 ∧
       s.dedicatedVector 1 = s.dedicatedVector 2 ∧ (s.takeHardware 98).intc.ipnd = 2 ∧
       { s with pctl := 0x000C0002 }.priority = 12 ∧
       ([11, 12, 13].map fun p : BitVec 5 => hardwareFirst 12 p) = [true, true, false]) ∧
    base.hardwareVector = 0 ∧
    (let s (ic : Word) := { base with
        ctrl := { base.ctrl with icon := ic }
        intc := { base.intc with xint := 0x53, imsk := 1 } }
     (s 1).expandedVector = 0xAC ∧ (s 2).expandedVector = 0x62 ∧ (s 0).expandedVector = 0 ∧
       (s 0).sampleInputs.intc.ipnd = 0xAC ∧ (s 2).sampleInputs.intc.ipnd = 0xA0 ∧
       (s 0x3FC).sampleInputs.intc.ipnd = 0 ∧
       (State.input (s 0x3FC) { idle with xint := 0x50 }).sampleInputs.intc.ipnd = 3) := by
  decide

theorem witness_NmiService :
    { base with intc := { base.intc with nmiPending := true } }.intc.nmiPending = true ∧
    base.intc.nmiDepth = none ∧
    { base with intc := { base.intc with nmiDepth := some 1 } }.intc.nmiDepth.isSome = true := by
  decide

set_option maxRecDepth 8000 in
theorem witness_UserModeKeepsControl :
    user.em = false ∧ isNext (exec (.addo x1 x2 d4) user) = true ∧
    isNext (exec (.sysctl x1 x1 (.reg 4)) user) = true ∧
    after (exec (.calls (.lit 3)) { sysTable with pctl := 0x00050000 }) State.em = true := by
  decide

theorem witness_ConditionCodeKept :
    writesCc (.addi x1 x2 d4) = false ∧ isNext (exec (.addi x1 x2 d4) base) = true := by
  decide

end Sys2Proof.Tests
end

section
/-! O7: fetching from internal data RAM (`20_memory.md` R113). The laws of reading back what a store of a
word and a fault record wrote come first, then what the entry of a fault puts into its record, then the
branches. -/

namespace Sys2Proof.Machine

/-! Reading back stored bytes and words. -/

/-- Bytes outside the written range, counted from its start modulo 2^32, read as before. -/
theorem State.readByte_writeBytes_outside {s : State} (h : s.mem.wf = true) {a x : Word}
    {bs : List Byte} (hx : bs.length ≤ (x - a).toNat) :
    (s.writeBytes a bs).readByte x = s.readByte x := by
  induction bs generalizing s a with
  | nil => rfl
  | cons b bs ih =>
    rw [List.length_cons] at hx
    have hne : a ≠ x := by bv_omega
    have hrest : bs.length ≤ (x - (a + 1)).toNat := by bv_omega
    rw [State.writeBytes, ih (State.writeByte_wf h a b) hrest, State.readByte_writeByte h, if_neg hne]

/-- Bytes written at rising addresses are read back, as long as they do not run around the address
space. -/
theorem State.readByte_writeBytes_inside {s : State} (h : s.mem.wf = true) {a : Word}
    {bs : List Byte} (hl : bs.length ≤ 2 ^ 32) {k : Nat} (hk : k < bs.length) :
    (s.writeBytes a bs).readByte (a + BitVec.ofNat 32 k) = bs[k] := by
  induction bs generalizing s a k with
  | nil => exact absurd hk (Nat.not_lt_zero k)
  | cons b bs ih =>
    have hb := State.writeByte_wf h a b
    rw [List.length_cons] at hl hk
    rw [State.writeBytes]
    cases k with
    | zero =>
      have hrest : bs.length ≤ (a + BitVec.ofNat 32 0 - (a + 1)).toNat := by bv_omega
      rw [State.readByte_writeBytes_outside hb hrest, State.readByte_writeByte h]
      simp
    | succ k =>
      have hk' : k < bs.length := by omega
      have haddr : a + BitVec.ofNat 32 (k + 1) = a + 1 + BitVec.ofNat 32 k := by
        rw [Nat.add_comm k 1, BitVec.ofNat_add, ← BitVec.add_assoc]; rfl
      rw [haddr, List.getElem_cons_succ]
      exact ih hb (by omega) hk'

theorem bytesOfWord_length (be : Bool) (v : Word) : (bytesOfWord be v).length = 4 := by
  cases be <;> rfl

/-- The bytes of a word, put together in the same order, are the word. -/
theorem wordOfMem_bytesOfWord (be : Bool) (v : Word) :
    wordOfMem be ((bytesOfWord be v)[0]'(by simp [bytesOfWord_length]))
      ((bytesOfWord be v)[1]'(by simp [bytesOfWord_length]))
      ((bytesOfWord be v)[2]'(by simp [bytesOfWord_length]))
      ((bytesOfWord be v)[3]'(by simp [bytesOfWord_length])) = v := by
  have key : (v.extractLsb' 24 8 ++ v.extractLsb' 16 8 ++ v.extractLsb' 8 8 ++ v.extractLsb' 0 8
      : BitVec 32) = v := by
    have h (i j n m : Nat) (hij : i = j + m) :
        v.extractLsb' i n ++ v.extractLsb' j m = v.extractLsb' j (n + m) :=
      BitVec.extractLsb'_append_extractLsb'_eq_extractLsb' hij
    rw [h 24 16 8 8 rfl, h 16 8 16 8 rfl, h 8 0 24 8 rfl]
    exact BitVec.extractLsb'_eq_self
  cases be <;> exact key

/-- A stored word is read back. -/
theorem State.readWord_writeWord_same {s : State} (h : s.mem.wf = true) (a v : Word) :
    (s.writeWord a v).readWord a = v := by
  have hlen := bytesOfWord_length (s.bigEndian a) v
  have hbyte (k : Nat) (hk : k < 4) :
      (s.writeWord a v).readByte (a + BitVec.ofNat 32 k) =
        (bytesOfWord (s.bigEndian a) v)[k]'(by omega) :=
    State.readByte_writeBytes_inside h (by omega) (by omega)
  calc (s.writeWord a v).readWord a
      = wordOfMem (s.bigEndian a) ((s.writeWord a v).readByte (a + BitVec.ofNat 32 0))
          ((s.writeWord a v).readByte (a + BitVec.ofNat 32 1))
          ((s.writeWord a v).readByte (a + BitVec.ofNat 32 2))
          ((s.writeWord a v).readByte (a + BitVec.ofNat 32 3)) := by
        rw [State.readWord_eq, State.bigEndian_writeWord, BitVec.add_zero]; rfl
    _ = v := by
        rw [hbyte 0 (by omega), hbyte 1 (by omega), hbyte 2 (by omega), hbyte 3 (by omega),
          wordOfMem_bytesOfWord]

/-- A word whose bytes a store of another word does not touch reads as before. -/
theorem State.readWord_writeWord_apart {s : State} (h : s.mem.wf = true) {a b : Word} (v : Word)
    (hab : 4 ≤ (b - a).toNat) (hba : 4 ≤ (a - b).toNat) :
    (s.writeWord a v).readWord b = s.readWord b := by
  have hbyte (x : Word) (hx : 4 ≤ (x - a).toNat) : (s.writeWord a v).readByte x = s.readByte x :=
    State.readByte_writeBytes_outside h (by rwa [bytesOfWord_length])
  rw [State.readWord_eq, State.readWord_eq, State.bigEndian_writeWord, hbyte b hab,
    hbyte (b + 1) (by bv_omega), hbyte (b + 2) (by bv_omega), hbyte (b + 3) (by bv_omega)]

/-- A read looks at memory and the control registers only. -/
theorem State.readWord_congr {s t : State} (hm : t.mem = s.mem) (hc : t.ctrl = s.ctrl) (a : Word) :
    t.readWord a = s.readWord a := by
  rw [State.readWord, State.readWord, hm, State.bigEndian_congr hc]

/-! The fault record (`61_faults.md` R536). -/

/-- The four words of a fault record, as they are read back. -/
structure State.HasFaultRecord (s : State) (nfp savedPc savedAc : Word) (c : FaultCode)
    (faultIp : Word) : Prop where
  pc : s.readWord (nfp - 16) = savedPc
  ac : s.readWord (nfp - 12) = savedAc
  code : s.readWord (nfp - 8) = faultRecordWord c
  ip : s.readWord (nfp - 4) = faultIp

/-- The record is read from memory, in the byte order that the control registers give. -/
theorem State.HasFaultRecord.congr {s t : State} {nfp savedPc savedAc faultIp : Word} {c : FaultCode}
    (h : s.HasFaultRecord nfp savedPc savedAc c faultIp) (hm : t.mem = s.mem) (hc : t.ctrl = s.ctrl) :
    t.HasFaultRecord nfp savedPc savedAc c faultIp where
  pc := (State.readWord_congr hm hc _).trans h.pc
  ac := (State.readWord_congr hm hc _).trans h.ac
  code := (State.readWord_congr hm hc _).trans h.code
  ip := (State.readWord_congr hm hc _).trans h.ip

/-- The record that is written is the record that is read: its four words lie apart. -/
theorem State.writeFaultRecord_hasFaultRecord {s : State} (h : s.mem.wf = true)
    (nfp savedPc savedAc : Word) (c : FaultCode) (faultIp : Word) :
    (s.writeFaultRecord nfp savedPc savedAc c faultIp).HasFaultRecord nfp savedPc savedAc c
      faultIp := by
  have hpc := State.writeWord_wf h (nfp - 16) savedPc
  have hac := State.writeWord_wf hpc (nfp - 12) savedAc
  have hcode := State.writeWord_wf hac (nfp - 8) (faultRecordWord c)
  constructor <;> rw [State.writeFaultRecord]
  case pc =>
    rw [State.readWord_writeWord_apart hcode _ (by bv_omega) (by bv_omega),
      State.readWord_writeWord_apart hac _ (by bv_omega) (by bv_omega),
      State.readWord_writeWord_apart hpc _ (by bv_omega) (by bv_omega),
      State.readWord_writeWord_same h]
  case ac =>
    rw [State.readWord_writeWord_apart hcode _ (by bv_omega) (by bv_omega),
      State.readWord_writeWord_apart hac _ (by bv_omega) (by bv_omega),
      State.readWord_writeWord_same hpc]
  case code =>
    rw [State.readWord_writeWord_apart hcode _ (by bv_omega) (by bv_omega),
      State.readWord_writeWord_same hac]
  case ip => rw [State.readWord_writeWord_same hcode]

/-- The frame of a call action starts at the new frame pointer. -/
theorem State.newFrame_fp (s : State) (rip nfp : Word) (p : Bool) (rt : BitVec 3) :
    (s.newFrame rip nfp p rt).fp = nfp := by
  obtain ⟨m, r, ts, h, -⟩ := s.newFrame_eq rip nfp p rt
  rw [h]
  exact Vector.getElem_set_self _

theorem State.newFrame_wf {s : State} (h : s.mem.wf = true) (rip nfp : Word) (p : Bool)
    (rt : BitVec 3) : (s.newFrame rip nfp p rt).mem.wf = true := by
  obtain ⟨m, r, ts, hs, hw, -⟩ := s.newFrame_eq rip nfp p rt
  rw [hs]
  exact hw h

theorem State.afterTables_wf {s : State} (h : s.mem.wf = true) (kind : CallKind) :
    (s.afterTables kind).mem.wf = true := by
  obtain ⟨m, ts, hs, hw⟩ := s.afterTables_eq kind
  rw [hs]
  exact hw h

theorem State.writeFaultRecord_globals (s : State) (nfp savedPc savedAc : Word) (c : FaultCode)
    (faultIp : Word) :
    (s.writeFaultRecord nfp savedPc savedAc c faultIp).globals = s.globals := by
  obtain ⟨m, h, -⟩ := s.writeFaultRecord_eq nfp savedPc savedAc c faultIp
  rw [h]

/-- FP is a global register. -/
theorem State.fp_congr {s t : State} (h : t.globals = s.globals) : t.fp = s.fp :=
  congrArg (fun g : Vector Word 16 => g[15]) h

/-- After a fault entry the record below FP holds PC and AC from before it, the type and subtype of the
fault and the fault IP: nothing writes memory after the record (R537). -/
theorem State.enterFault_hasFaultRecord {s t : State} {c : FaultCode} {faultIp rip : Word}
    (hw : s.mem.wf = true) (h : s.enterFault c faultIp rip = .ok t) :
    t.HasFaultRecord t.fp s.pctl s.ac c faultIp := by
  unfold State.enterFault at h
  split at h
  · cases h
  next target kind _ =>
    injection h with h
    subst h
    have hframe := State.turn_wf (State.newFrame_wf (State.afterTables_wf hw kind) rip
      ((s.afterTables kind).faultFrame kind) (s.tc.getLsbD 3) 1)
    have hfp := (s.afterTables kind).newFrame_fp rip ((s.afterTables kind).faultFrame kind)
      (s.tc.getLsbD 3) 1
    generalize (s.afterTables kind).faultFrame kind = nfp at hframe hfp ⊢
    generalize (s.afterTables kind).newFrame rip nfp (s.tc.getLsbD 3) 1 = u at hframe hfp ⊢
    have hrecord := State.writeFaultRecord_hasFaultRecord hframe nfp s.pctl s.ac c faultIp
    rw [State.fp_congr (s := u) (by simp [State.writeFaultRecord_globals]), hfp]
    exact hrecord.congr (by simp) (by simp)

/-- A fault taken early leaves the record of its instruction. -/
theorem takeEarlyFault_hasFaultRecord {s t : State} {c : FaultCode} {next : Word}
    (hw : s.mem.wf = true) (h : takeEarlyFault s c next = .next t) :
    t.HasFaultRecord t.fp s.pctl s.ac c s.ip := by
  obtain ⟨d, rip, he⟩ := takeEarlyFault_next h
  exact State.enterFault_hasFaultRecord (s := { s with turns := [], draws := d }) hw he

/-! The fetch (R113). -/

/-- An instruction in internal data RAM faults where it would run. -/
theorem State.runNext_of_inDataRam {s : State} (h : inDataRam s.ip = true) :
    s.runNext = takeEarlyFault s .unimplemented (s.nextIp (s.readWord s.ip)) := by
  rw [State.runNext, if_pos h]

/-! Branches (`43_compare_branch.md` R361, R362). -/

/-- The address of an instruction is its own aligned target. -/
theorem alignTarget_of_aligned {a : Word} (h : a &&& 3 = 0) : alignTarget a = a := by
  calc a &&& 0xFFFFFFFC
      = (a &&& 0xFFFFFFFC) ||| (a &&& 3) := by rw [h]; exact BitVec.or_zero.symm
    _ = a &&& BitVec.allOnes 32 := by rw [← BitVec.and_or_distrib_left]; rfl
    _ = a := BitVec.and_allOnes

/-- The displacement of a CTRL instruction counts words. -/
theorem ctrlOffset_toInt (disp : BitVec 22) : (ctrlOffset disp).toInt = 4 * disp.toInt := by
  rw [ctrlOffset, BitVec.toInt_signExtend_of_le (by decide), BitVec.toInt_append_zero]
  rfl

/-- Where the sum stays in the address space, a CTRL target is the sum of the integers. -/
theorem add_ctrlOffset_of_toNat {a b : Word} {disp : BitVec 22}
    (h : (a.toNat : Int) + 4 * disp.toInt = b.toNat) : a + ctrlOffset disp = b := by
  rw [← ctrlOffset_toInt] at h
  have hsum := congrArg (BitVec.ofInt 32) h
  rwa [BitVec.ofInt_add, BitVec.ofInt_natCast, BitVec.ofInt_natCast, BitVec.ofInt_toInt,
    BitVec.ofNat_toNat, BitVec.ofNat_toNat, BitVec.setWidth_eq, BitVec.setWidth_eq] at hsum

/-- With tracing off a taken branch does nothing but go to its target. -/
theorem runInstr_branch {s : State} (h : s.untraced = true) (len target : Word) :
    runInstr s len (fun r => .ok (r.branch target)) = .next (s.goTo target) := by
  have hnoted : (0 ||| evBranch) &&& 0x0F800000 = 0 := by decide
  exact runInstr_untraced h (r := Run.branch ⟨s.advance len, s.tc, s.te, 0, none, none⟩ target)
    rfl (s.untraced_iff.1 h).1 hnoted rfl rfl

theorem exec_b_untraced {s : State} (h : s.untraced = true) (disp : BitVec 22) (p : Bool) :
    exec (.b disp p) s = .next (s.goTo (s.ip + ctrlOffset disp)) := runInstr_branch h _ _

theorem exec_bx_untraced {s : State} (h : s.untraced = true) (efa : Efa) :
    exec (.bx efa) s = .next (s.goTo (alignTarget (s.address s.ip efa))) := runInstr_branch h _ _

/-- Settles O7. The fault is the early fault of `runNext`; its record is what every fault entry writes;
a branch goes to its target without a look at what lies there. -/
theorem fetchFromDataRam : Obligations.FetchFromDataRam := by
  intro s hip
  have hrun := State.runNext_of_inDataRam (decide_eq_true hip)
  refine ⟨⟨_, [], hrun⟩, fun hw t ht _ => ?_, fun r disp p efa hu hal => ⟨fun hsum => ?_, fun ha => ?_⟩⟩
  · rw [hrun] at ht
    obtain ⟨-, -, hcode, hfaultIp⟩ := takeEarlyFault_hasFaultRecord hw ht
    exact ⟨hfaultIp, by rw [hcode]; decide⟩
  · rw [exec_b_untraced hu, add_ctrlOffset_of_toNat hsum]
  · rw [exec_bx_untraced hu, ha, alignTarget_of_aligned hal]

end Sys2Proof.Machine
end

section
/-! O23: the bit instructions, `bbc`, `bbs` and `scanbyte` (`42_logical_bit.md` R315 to R320, R328;
`43_compare_branch.md` R372, R373). The bit that a position names comes first, as a power of two and as
a condition code, then what the shared shapes of these instructions answer with tracing off. -/

namespace Sys2Proof.Machine

/-! The named bit (R315). -/

/-- The mask of a bit is its value. -/
theorem bitMask_eq_ofNat (pos : Word) : bitMask pos = BitVec.ofNat 32 (2 ^ (pos.toNat % 32)) :=
  BitVec.eq_of_toNat_eq ((BitVec.toNat_twoPow 32 _).trans (BitVec.toNat_ofNat _ _).symm)

/-- A word has nothing under the mask of a bit exactly when that bit is clear. -/
theorem and_bitMask_eq_zero (pos w : Word) : w &&& bitMask pos = 0 ↔ bitAt pos w = false := by
  have hlt : pos.toNat % 32 < 32 := Nat.mod_lt _ (by decide)
  have hne : bitMask pos ≠ 0 := fun h0 =>
    absurd ((BitVec.toNat_twoPow_of_lt hlt).symm.trans (congrArg BitVec.toNat h0))
      (Nat.two_pow_pos _).ne'
  have hand : w &&& bitMask pos = if bitAt pos w then bitMask pos else 0 := BitVec.and_twoPow w _
  rw [hand]
  cases bitAt pos w with
  | false => simp
  | true => simpa using hne

/-- `alterbit` clears the bit where condition-code bit 1 is 0 and sets it where it is 1 (R319). -/
theorem alterBit_eq_ite (cc : BitVec 3) (pos w : Word) :
    alterBit cc pos w =
      if cc.getLsbD 1 = false then w &&& ~~~bitMask pos else w ||| bitMask pos := by
  rw [alterBit]
  cases cc.getLsbD 1 <;> rfl

/-- The code of a set bit, as `chkbit` and `bbs` give it (R320, R373). -/
theorem truthCode_bitAt (pos w : Word) :
    truthCode (bitAt pos w) = if w &&& bitMask pos = 0 then 0 else 2 := by
  simp only [and_bitMask_eq_zero, truthCode]
  cases bitAt pos w <;> rfl

/-- The code of a clear bit, as `bbc` gives it (R372). -/
theorem truthCode_not_bitAt (pos w : Word) :
    truthCode (!bitAt pos w) = if w &&& bitMask pos = 0 then 2 else 0 := by
  simp only [and_bitMask_eq_zero, truthCode]
  cases bitAt pos w <;> rfl

/-- Two words agree in a byte exactly when they agree in one of their four (R328). -/
theorem someByteEqual_iff (x y : Word) :
    someByteEqual x y = true ↔
      ∃ k : Fin 4, x.extractLsb' (8 * k.val) 8 = y.extractLsb' (8 * k.val) 8 := by
  simp [someByteEqual, Fin.exists_fin_succ, or_assoc]

/-! The condition code. -/

/-- A condition code that is written is read back. -/
@[simp] theorem State.setCc_cc (s : State) (c : BitVec 3) : (s.setCc c).cc = c := by
  have hclear : ∀ i : Fin 3, (0xFFFFFFF8#32).getLsbD i.val = false := by decide
  refine BitVec.eq_of_getLsbD_eq fun i hi => ?_
  have hwidth : i < 32 := by omega
  simp only [State.cc, State.setCc, BitVec.reduceNot, BitVec.getLsbD_extractLsb', hi, decide_true,
    BitVec.getLsbD_or, BitVec.getLsbD_and, Nat.zero_add, hclear ⟨i, hi⟩, Bool.and_false, Bool.false_or,
    BitVec.getLsbD_setWidth, hwidth, Bool.true_and, BitVec.truncate_eq_setWidth]

@[simp] theorem State.goTo_cc (s : State) (a : Word) : (s.goTo a).cc = s.cc := rfl

/-! The shared shapes with tracing off and operands that can be used. -/

/-- An instruction that only changes the state ends in the changed state. -/
theorem runChecked_modify {s : State} (h : s.untraced = true) {us : List Use}
    (hu : s.canUseAll us = true) (len : Word) (f : State → State) :
    runChecked s len us (fun r => .ok (r.modify f)) = .next (f (s.advance len)) := by
  rw [runChecked_of_canUse hu]
  exact runInstr_untraced h (r := ⟨f (s.advance len), s.tc, s.te, 0, none, none⟩) rfl
    (s.untraced_iff.1 h).1 BitVec.zero_and rfl rfl

/-- An instruction that changes the state and branches on a condition ends in the changed state, or at
the target. -/
theorem runChecked_modify_branchIf {s : State} (h : s.untraced = true) {us : List Use}
    (hu : s.canUseAll us = true) (len : Word) (f : State → State) (taken : Bool) (target : Word) :
    runChecked s len us (fun r => .ok ((r.modify f).branchIf taken target)) =
      .next (if taken then (f (s.advance len)).goTo target else f (s.advance len)) := by
  cases taken with
  | false => exact runChecked_modify h hu len f
  | true =>
    have hnoted : (0 ||| evBranch) &&& 0x0F800000 = 0 := by decide
    rw [runChecked_of_canUse hu]
    exact runInstr_untraced h
      (r := Run.branch ⟨f (s.advance len), s.tc, s.te, 0, none, none⟩ target) rfl
      (s.untraced_iff.1 h).1 hnoted rfl rfl

theorem binaryForm_untraced {s : State} (h : s.untraced = true) {src1 src2 : Src} {dst : Dst}
    (hu : s.canUseAll [(srcOperand src1).one, (srcOperand src2).one, (dstOperand dst).one] = true)
    (f : Word → Word → Word) :
    binaryForm s src1 src2 dst f = .next ((s.advance 4).putValue (dstOperand dst) 0
      (f (s.value (srcOperand src1) 0) (s.value (srcOperand src2) 0))) :=
  runChecked_modify h hu 4 _

theorem codeForm_untraced {s : State} (h : s.untraced = true) {src1 src2 : Src}
    (hu : s.canUseAll [(srcOperand src1).one, (srcOperand src2).one] = true)
    (f : Word → Word → BitVec 3) :
    codeForm s src1 src2 f = .next ((s.advance 4).setCc
      (f (s.value (srcOperand src1) 0) (s.value (srcOperand src2) 0))) :=
  runChecked_modify h hu 4 _

/-- A bit branch writes its code and goes to its target where the bit has the wanted value. -/
theorem bitBranchForm_untraced {s : State} (h : s.untraced = true) {src1 : CSrc1} {src2 : CSrc2}
    (hu : s.canUseAll [(csrc1Operand src1).one, (csrc2Operand src2).one] = true)
    (disp : BitVec 11) (want : Bool) :
    let taken := bitAt (s.value (csrc1Operand src1) 0) (s.value (csrc2Operand src2) 0) == want
    let u := (s.advance 4).setCc (truthCode taken)
    bitBranchForm s src1 src2 disp want =
      .next (if taken then u.goTo (s.ip + cobrOffset disp) else u) :=
  runChecked_modify_branchIf h hu 4 _ _ _

/-- Whether it branches or not, a bit branch completes with its code. -/
theorem bitBranchForm_cc {s : State} (h : s.untraced = true) {src1 : CSrc1} {src2 : CSrc2}
    (hu : s.canUseAll [(csrc1Operand src1).one, (csrc2Operand src2).one] = true)
    (disp : BitVec 11) (want : Bool) :
    completesWith (bitBranchForm s src1 src2 disp want) fun t => t.cc =
      truthCode (bitAt (s.value (csrc1Operand src1) 0) (s.value (csrc2Operand src2) 0) == want) := by
  refine ⟨_, bitBranchForm_untraced h hu disp want, ?_⟩
  split <;> simp

/-! The meanings as shared shapes. -/

section
variable (src1 src2 : Src) (dst : Dst) (c1 : CSrc1) (c2 : CSrc2) (disp : BitVec 11) (p : Bool)
  (s : State)

theorem exec_setbit : exec (.setbit src1 src2 dst) s =
    binaryForm s src1 src2 dst fun x y => y ||| bitMask x := rfl

theorem exec_clrbit : exec (.clrbit src1 src2 dst) s =
    binaryForm s src1 src2 dst fun x y => y &&& ~~~bitMask x := rfl

theorem exec_notbit : exec (.notbit src1 src2 dst) s =
    binaryForm s src1 src2 dst fun x y => y ^^^ bitMask x := rfl

theorem exec_alterbit : exec (.alterbit src1 src2 dst) s =
    binaryForm s src1 src2 dst (alterBit s.cc) := rfl

theorem exec_chkbit : exec (.chkbit src1 src2) s =
    codeForm s src1 src2 fun x y => truthCode (bitAt x y) := rfl

theorem exec_scanbyte : exec (.scanbyte src1 src2) s =
    codeForm s src1 src2 fun x y => truthCode (someByteEqual x y) := rfl

theorem exec_bbc : exec (.bbc c1 c2 disp p) s = bitBranchForm s c1 c2 disp false := rfl

theorem exec_bbs : exec (.bbs c1 c2 disp p) s = bitBranchForm s c1 c2 disp true := rfl

end

/-- Settles O23. Each instruction is one of three shared shapes; what it computes with the position is
the mask of the bit, whose value is the power of two of the statement. -/
theorem bitResults : Obligations.BitResults := by
  intro src1 src2 dst c1 c2 d p s hs bit x y done
  have hbit (pos : Word) : bit pos = bitMask pos := (bitMask_eq_ofNat pos).symm
  simp only [hbit]
  refine ⟨rfl, rfl, fun hu => ⟨?setbit, ?clrbit, ?notbit, ?alterbit⟩,
    fun hu => ⟨?chkbit, ?scanbyte⟩, fun hu => ⟨?bbc, ?bbs⟩⟩
  case setbit => rw [exec_setbit, binaryForm_untraced hs hu]
  case clrbit => rw [exec_clrbit, binaryForm_untraced hs hu]
  case notbit => rw [exec_notbit, binaryForm_untraced hs hu]
  case alterbit => rw [exec_alterbit, binaryForm_untraced hs hu, alterBit_eq_ite]
  case chkbit => rw [exec_chkbit, codeForm_untraced hs hu, truthCode_bitAt]
  case scanbyte =>
    rw [exec_scanbyte, codeForm_untraced hs hu, truthCode]
    simp only [someByteEqual_iff, x, y]
  case bbc =>
    rw [exec_bbc]
    simpa only [beq_false, truthCode_not_bitAt] using bitBranchForm_cc hs hu d false
  case bbs =>
    rw [exec_bbs]
    simpa only [beq_true, truthCode_bitAt] using bitBranchForm_cc hs hu d true

end Sys2Proof.Machine
end

section
/-! O1, O2, O4: the decoder against the encoder (`30_encoding.md` sections 1 to 5). The operand fields
come first, as the decoder takes them from a packed word, then one lemma for each shape of instruction,
then the decoder's tables read backwards. -/

namespace Sys2Proof

/-! Operand fields of packed words. -/

theorem srcOf_num (a : Src) : srcOf a.m a.s a.num = a := by cases a <;> rfl

section
variable (hi : BitVec 8) (lo : BitVec 4) (src1 src2 : Src) (n : BitVec 5) (m : Bool)

theorem regSrc1_packReg :
    regSrc1 (packReg hi lo n src2.num m src2.m src1.m src2.s src1.s src1.num) = src1 := by
  rw [regSrc1, packReg_m1, packReg_s1, fieldLo, packReg_lo, srcOf_num]

theorem regSrc2_packReg :
    regSrc2 (packReg hi lo n src2.num m src2.m src1.m src2.s src1.s src1.num) = src2 := by
  rw [regSrc2, packReg_m2, packReg_s2, fieldMid, packReg_mid, srcOf_num]

theorem regDst_packReg (d : Dst) :
    regDst (packReg hi lo d.num src2.num d.m src2.m src1.m src2.s src1.s src1.num) = d := by
  rw [regDst, packReg_m3, fieldHi, packReg_hi]
  cases d <;> rfl

theorem regUpd_packReg (d : Upd) :
    regUpd (packReg hi lo d.num src2.num d.m src2.m src1.m src2.s src1.s src1.num) = d := by
  rw [regUpd, packReg_m3, fieldHi, packReg_hi]
  cases d <;> rfl

theorem regSrc3_packReg (a : Src3) :
    regSrc3 (packReg hi lo a.num src2.num a.m src2.m src1.m src2.s src1.s src1.num) = a := by
  rw [regSrc3, packReg_m3, fieldHi, packReg_hi]
  cases a <;> rfl

end

section
variable (op : BitVec 8) (disp : BitVec 11) (t : Bool)

theorem cobrSrc1_packCobr (a : CSrc1) (n : BitVec 5) (k : Bool) :
    cobrSrc1 (packCobr op a.num n a.m disp t k) = a := by
  rw [cobrSrc1, packCobr_m1, fieldHi, packCobr_hi]
  cases a <;> rfl

theorem cobrSrc2_packCobr (n : BitVec 5) (m : Bool) (b : CSrc2) :
    cobrSrc2 (packCobr op n b.num m disp t b.s) = b := by
  rw [cobrSrc2, packCobr_s2, fieldMid, packCobr_mid]
  cases b <;> rfl

theorem cobrDst_packCobr (d : Upd) (n : BitVec 5) (k : Bool) :
    cobrDst (packCobr op d.num n d.m disp t k) = d := by
  rw [cobrDst, packCobr_m1, fieldHi, packCobr_hi]
  cases d <;> rfl

end

theorem scaleOf_code (k : Scale) : scaleOf k.code.toNat = .ok k := by cases k <;> rfl

/-! The format of a packed word (R161). -/

theorem decode_packCtrl {op : BitVec 8} (h : op.toNat < 0x20) (disp : BitVec 22) (t : Bool)
    (d : Word) : decode (packCtrl op disp t) d = decodeCtrl op.toNat (packCtrl op disp t) := by
  rw [decode, opByte_packCtrl, if_pos h]

theorem decode_packCobr {op : BitVec 8} (h : 0x20 ≤ op.toNat ∧ op.toNat < 0x40) (a b : BitVec 5)
    (m : Bool) (disp : BitVec 11) (t k : Bool) (d : Word) :
    decode (packCobr op a b m disp t k) d = decodeCobr op.toNat (packCobr op a b m disp t k) := by
  rw [decode, opByte_packCobr, if_neg (by omega), if_pos h.2]

theorem decode_packReg {hi : BitVec 8} (h : 0x40 ≤ hi.toNat ∧ hi.toNat < 0x80) (lo : BitVec 4)
    (n b : BitVec 5) (m3 m2 m1 k2 k1 : Bool) (a : BitVec 5) (d : Word) :
    decode (packReg hi lo n b m3 m2 m1 k2 k1 a) d =
      decodeReg (hi.toNat * 16 + lo.toNat) (packReg hi lo n b m3 m2 m1 k2 k1 a) := by
  rw [decode, opByte_packReg, if_neg (by omega), if_neg (by omega), if_pos h.2, regOpcode,
    packReg_op, packReg_sub]

theorem decode_mem {w : Word} (h : 0x80 ≤ opByte w) (d : Word) :
    decode w d = decodeMem (opByte w) w d := by
  rw [decode, if_neg (by omega), if_neg (by omega), if_neg (by omega)]

/-! The addressing modes (R175 to R177). -/

/-- Bit 12 of a MEM word, which tells MEMB from MEMA, is bit 2 of its mode. -/
theorem getLsbD_12_eq (w : Word) : w.getLsbD 12 = (w.extractLsb' 10 4).getLsbD 2 := by
  rw [BitVec.getLsbD_extractLsb']; rfl

/-- A MEMB word by its mode, bits 13:10. -/
theorem decodeEfa_of_mode {w : Word} {m : BitVec 4} (h : w.extractLsb' 10 4 = m)
    (hm : m.getLsbD 2 = true) (d : Word) :
    decodeEfa w d =
      match m.toNat with
      | 4 => .ok (.regInd (fieldMid w))
      | 5 => .ok (.ipDisp d)
      | 7 => (scaleOf (w.extractLsb' 7 3).toNat).map fun k => .regIndex (fieldMid w) (fieldLo w) k
      | 12 => .ok (.absDisp d)
      | 13 => .ok (.regDisp (fieldMid w) d)
      | 14 => (scaleOf (w.extractLsb' 7 3).toNat).map fun k => .indexDisp (fieldLo w) k d
      | 15 => (scaleOf (w.extractLsb' 7 3).toNat).map fun k =>
          .regIndexDisp (fieldMid w) (fieldLo w) k d
      | _ => .error .reservedMode := by
  rw [decodeEfa, getLsbD_12_eq, h, hm]
  rfl

section
variable (op : BitVec 8) (r a i : BitVec 5) (o : BitVec 12) (k : Scale) (d : Word)

theorem decodeEfa_packMema (m : Bool) : decodeEfa (packMema op r a m o) d =
    .ok (if m then .regOffset a o else .absOffset o) := by
  rw [decodeEfa, packMema_memb, packMema_mode, fieldMid, packMema_mid, packMema_offset]
  cases m <;> rfl

/-- A packed MEMB word by its mode. -/
theorem decodeEfa_packMemb {m : BitVec 4} (hm : m.getLsbD 2 = true) :
    decodeEfa (packMemb op r a m k.code i) d =
      match m.toNat with
      | 4 => .ok (.regInd a)
      | 5 => .ok (.ipDisp d)
      | 7 => .ok (.regIndex a i k)
      | 12 => .ok (.absDisp d)
      | 13 => .ok (.regDisp a d)
      | 14 => .ok (.indexDisp i k d)
      | 15 => .ok (.regIndexDisp a i k d)
      | _ => .error .reservedMode := by
  rw [decodeEfa_of_mode (packMemb_mode op r a m k.code i) hm, packMemb_scale, scaleOf_code, fieldMid,
    packMemb_mid, fieldLo, packMemb_lo]
  rfl

end

/-- The words of a MEM instruction: its opcode, its register and its addressing mode. -/
theorem encodeMem_decodes (op : BitVec 8) (r : BitVec 5) (e : Efa) :
    ∃ w rest, encodeMem op r e = w :: rest ∧ opByte w = op.toNat ∧ fieldHi w = r ∧
      decodeEfa w (rest.headD 0) = .ok e ∧ rest.length ≤ 1 := by
  cases e with
  | absOffset o => exact ⟨_, [], rfl, congrArg _ (packMema_op ..), packMema_hi .., decodeEfa_packMema .., by simp⟩
  | regOffset a o => exact ⟨_, [], rfl, congrArg _ (packMema_op ..), packMema_hi .., decodeEfa_packMema .., by simp⟩
  | regInd a =>
    exact ⟨_, [], rfl, congrArg _ (packMemb_op ..), packMemb_hi .., decodeEfa_packMemb op r a 0 .x1 _ (m := 4) rfl, by simp⟩
  | ipDisp d =>
    exact ⟨_, [d], rfl, congrArg _ (packMemb_op ..), packMemb_hi .., decodeEfa_packMemb op r 0 0 .x1 _ (m := 5) rfl, by simp⟩
  | regIndex a i k =>
    exact ⟨_, [], rfl, congrArg _ (packMemb_op ..), packMemb_hi .., decodeEfa_packMemb op r a i k _ (m := 7) rfl, by simp⟩
  | absDisp d =>
    exact ⟨_, [d], rfl, congrArg _ (packMemb_op ..), packMemb_hi .., decodeEfa_packMemb op r 0 0 .x1 _ (m := 12) rfl, by simp⟩
  | regDisp a d =>
    exact ⟨_, [d], rfl, congrArg _ (packMemb_op ..), packMemb_hi .., decodeEfa_packMemb op r a 0 .x1 _ (m := 13) rfl, by simp⟩
  | indexDisp i k d =>
    exact ⟨_, [d], rfl, congrArg _ (packMemb_op ..), packMemb_hi .., decodeEfa_packMemb op r 0 i k _ (m := 14) rfl, by simp⟩
  | regIndexDisp a i k d =>
    exact ⟨_, [d], rfl, congrArg _ (packMemb_op ..), packMemb_hi .., decodeEfa_packMemb op r a i k _ (m := 15) rfl, by simp⟩

/-! Each shape of instruction decodes to itself. -/

/-- The words of an instruction decode to it, and the first says whether there is a second. -/
structure Decodes (i : Instr) (w : Word) (rest : List Word) : Prop where
  words : encode i = w :: rest
  instr : decode w (rest.headD 0) = .ok i
  second : hasSecondWord w = !rest.isEmpty
  length : rest.length ≤ 1

/-- Some words of the instruction decode to it. -/
def RoundTrips (i : Instr) : Prop := ∃ w rest, Decodes i w rest

theorem RoundTrips.of_word {i : Instr} {w : Word} (h : encode i = [w]) (hw : opByte w < 0x80)
    (hd : decode w 0 = .ok i) : RoundTrips i :=
  ⟨w, [], h, hd, hasSecondWord_low hw, Nat.zero_le 1⟩

section
variable {op : BitVec 8} {disp : BitVec 22} {t : Bool}

theorem RoundTrips.ctrl {f : BitVec 22 → Bool → Instr} (he : encode (f disp t) = [packCtrl op disp t])
    (hop : op.toNat < 0x20)
    (hd : ∀ w, decodeCtrl op.toNat w = .ok (f (w.extractLsb' 2 22) (w.getLsbD 1))) :
    RoundTrips (f disp t) :=
  .of_word he (by rw [opByte_packCtrl]; omega)
    (by rw [decode_packCtrl hop, hd, packCtrl_disp, packCtrl_t])

theorem RoundTrips.bare {i : Instr} (he : encode i = [packCtrl op disp t]) (hop : op.toNat < 0x20)
    (hd : ∀ w, decodeCtrl op.toNat w = .ok i) : RoundTrips i :=
  .of_word he (by rw [opByte_packCtrl]; omega) (by rw [decode_packCtrl hop, hd])

end

section
variable {op : BitVec 8} {disp : BitVec 11} {t : Bool}

theorem RoundTrips.cobr {f : CSrc1 → CSrc2 → BitVec 11 → Bool → Instr} {a : CSrc1} {b : CSrc2}
    (he : encode (f a b disp t) = encodeCobr op a b disp t) (hop : 0x20 ≤ op.toNat ∧ op.toNat < 0x40)
    (hd : ∀ w, decodeCobr op.toNat w =
      .ok (f (cobrSrc1 w) (cobrSrc2 w) (w.extractLsb' 2 11) (w.getLsbD 1))) :
    RoundTrips (f a b disp t) :=
  .of_word he (by rw [opByte_packCobr]; omega)
    (by rw [decode_packCobr hop, hd, cobrSrc1_packCobr, cobrSrc2_packCobr, packCobr_disp, packCobr_t])

theorem RoundTrips.test {f : Upd → Instr} {d : Upd}
    (he : encode (f d) = [packCobr op d.num 0 d.m 0 false false])
    (hop : 0x20 ≤ op.toNat ∧ op.toNat < 0x40)
    (hd : ∀ w, decodeCobr op.toNat w = .ok (f (cobrDst w))) : RoundTrips (f d) :=
  .of_word he (by rw [opByte_packCobr]; omega) (by rw [decode_packCobr hop, hd, cobrDst_packCobr])

end

section
variable {hi : BitVec 8} {lo : BitVec 4} {a b : Src} {d : Dst}

/-- An instruction of the REG format, by what the decoder makes of its word. -/
theorem RoundTrips.reg {i : Instr} {n : BitVec 5} {m : Bool} (he : encode i = encodeReg hi lo n m b a)
    (hop : 0x40 ≤ hi.toNat ∧ hi.toNat < 0x80)
    (hd : decodeReg (hi.toNat * 16 + lo.toNat)
      (packReg hi lo n b.num m b.m a.m b.s a.s a.num) = .ok i) : RoundTrips i :=
  .of_word he (by rw [opByte_packReg]; omega) (by rw [decode_packReg hop, hd])

theorem RoundTrips.reg3 {f : Src → Src → Dst → Instr}
    (he : encode (f a b d) = encodeReg hi lo d.num d.m b a) (hop : 0x40 ≤ hi.toNat ∧ hi.toNat < 0x80)
    (hd : ∀ w, decodeReg (hi.toNat * 16 + lo.toNat) w = .ok (f (regSrc1 w) (regSrc2 w) (regDst w))) :
    RoundTrips (f a b d) :=
  .reg he hop (by rw [hd, regSrc1_packReg, regSrc2_packReg, regDst_packReg])

theorem RoundTrips.regUpd {f : Src → Src → Upd → Instr} {d : Upd}
    (he : encode (f a b d) = encodeReg hi lo d.num d.m b a) (hop : 0x40 ≤ hi.toNat ∧ hi.toNat < 0x80)
    (hd : ∀ w, decodeReg (hi.toNat * 16 + lo.toNat) w = .ok (f (regSrc1 w) (regSrc2 w) (regUpd w))) :
    RoundTrips (f a b d) :=
  .reg he hop (by rw [hd, regSrc1_packReg, regSrc2_packReg, regUpd_packReg])

theorem RoundTrips.regSrc3 {f : Src → Src → Src3 → Instr} {c : Src3}
    (he : encode (f a b c) = encodeReg hi lo c.num c.m b a) (hop : 0x40 ≤ hi.toNat ∧ hi.toNat < 0x80)
    (hd : ∀ w, decodeReg (hi.toNat * 16 + lo.toNat) w = .ok (f (regSrc1 w) (regSrc2 w) (regSrc3 w))) :
    RoundTrips (f a b c) :=
  .reg he hop (by rw [hd, regSrc1_packReg, regSrc2_packReg, regSrc3_packReg])

theorem RoundTrips.regPair {f : Src → Dst → Instr}
    (he : encode (f a d) = encodeReg hi lo d.num d.m (.reg 0) a)
    (hop : 0x40 ≤ hi.toNat ∧ hi.toNat < 0x80)
    (hd : ∀ w, decodeReg (hi.toNat * 16 + lo.toNat) w = .ok (f (regSrc1 w) (regDst w))) :
    RoundTrips (f a d) :=
  .reg he hop (by rw [hd, regSrc1_packReg, regDst_packReg])

theorem RoundTrips.regSrcs {f : Src → Src → Instr}
    (he : encode (f a b) = encodeReg hi lo 0 false b a) (hop : 0x40 ≤ hi.toNat ∧ hi.toNat < 0x80)
    (hd : ∀ w, decodeReg (hi.toNat * 16 + lo.toNat) w = .ok (f (regSrc1 w) (regSrc2 w))) :
    RoundTrips (f a b) :=
  .reg he hop (by rw [hd, regSrc1_packReg, regSrc2_packReg])

theorem RoundTrips.regSrc {f : Src → Instr}
    (he : encode (f a) = encodeReg hi lo 0 false (.reg 0) a)
    (hop : 0x40 ≤ hi.toNat ∧ hi.toNat < 0x80)
    (hd : ∀ w, decodeReg (hi.toNat * 16 + lo.toNat) w = .ok (f (regSrc1 w))) :
    RoundTrips (f a) :=
  .reg he hop (by rw [hd, regSrc1_packReg])

end

/-- An instruction of the MEM format, by what the decoder makes of its register and its address. -/
theorem RoundTrips.mem {i : Instr} {op : BitVec 8} {r : BitVec 5} {e : Efa}
    (g : BitVec 5 → Efa → Instr) (hi : g r e = i) (he : encode i = encodeMem op r e)
    (hop : 0x80 ≤ op.toNat)
    (hd : ∀ w d, decodeMem op.toNat w d = (decodeEfa w d).map (g (fieldHi w))) : RoundTrips i := by
  obtain ⟨w, rest, hw, ho, hr, hmode, hl⟩ := encodeMem_decodes op r e
  have hlen := encodeMem_length hop r e
  rw [hw, List.headD_cons, List.length_cons] at hlen
  refine ⟨w, rest, he.trans hw, ?_, ?_, hl⟩
  · rw [decode_mem (by omega), ho, hd, hmode, hr, ← hi]; rfl
  · split at hlen <;> cases rest <;> simp_all

/-- A load, or any instruction that names its address first. -/
theorem RoundTrips.load {f : Efa → RegNum → Instr} {op : BitVec 8} {r : RegNum} {e : Efa}
    (he : encode (f e r) = encodeMem op r e) (hop : 0x80 ≤ op.toNat)
    (hd : ∀ w d, decodeMem op.toNat w d = (decodeEfa w d).map fun e => f e (fieldHi w)) :
    RoundTrips (f e r) := .mem (fun r e => f e r) rfl he hop hd

theorem RoundTrips.store {f : RegNum → Efa → Instr} {op : BitVec 8} {r : RegNum} {e : Efa}
    (he : encode (f r e) = encodeMem op r e) (hop : 0x80 ≤ op.toNat)
    (hd : ∀ w d, decodeMem op.toNat w d = (decodeEfa w d).map (f (fieldHi w))) :
    RoundTrips (f r e) := .mem f rfl he hop hd

/-- An instruction with nothing but an address. -/
theorem RoundTrips.address {f : Efa → Instr} {op : BitVec 8} {e : Efa}
    (he : encode (f e) = encodeMem op 0 e) (hop : 0x80 ≤ op.toNat)
    (hd : ∀ w d, decodeMem op.toNat w d = (decodeEfa w d).map f) : RoundTrips (f e) :=
  .mem (fun _ => f) rfl he hop hd

/-- The words of every instruction decode to it. -/
theorem roundTrips (i : Instr) : RoundTrips i := by
  cases i
  case b | call | bal | bno | bg | be | bge | bl | bne | ble | bo =>
    exact .ctrl rfl (by decide) fun _ => rfl
  case ret | faultno | faultg | faulte | faultge | faultl | faultne | faultle | faulto =>
    exact .bare rfl (by decide) fun _ => rfl
  case testno | testg | teste | testge | testl | testne | testle | testo =>
    exact .test rfl (by decide) fun _ => rfl
  case bbc | cmpobg | cmpobe | cmpobge | cmpobl | cmpobne | cmpoble | bbs | cmpibno | cmpibg | cmpibe |
      cmpibge | cmpibl | cmpibne | cmpible | cmpibo =>
    exact .cobr rfl (by decide) fun _ => rfl
  case notbit | and | andnot | setbit | notand | xor | or | nor | xnor | ornot | clrbit | notor | nand |
      alterbit | addo | addi | subo | subi | shro | shrdi | shri | shlo | rotate | shli | cmpinco |
      cmpinci | cmpdeco | cmpdeci | addc | subc | eshro | atadd | modac | modtc | emul | ediv | mulo |
      remo | divo | muli | remi | modi | divi =>
    exact .reg3 rfl (by decide) fun _ => rfl
  case atmod | modify | extract | modpc => exact .regUpd rfl (by decide) fun _ => rfl
  case sdma | sysctl => exact .regSrc3 rfl (by decide) fun _ => rfl
  case not | mov | movl | movt | movq | spanbit | scanbit =>
    exact .regPair rfl (by decide) fun _ => rfl
  case cmpo | cmpi | concmpo | concmpi | scanbyte | chkbit =>
    exact .regSrcs rfl (by decide) fun _ => rfl
  case calls => exact .regSrc rfl (by decide) fun _ => rfl
  case udma | mark | fmark | flushreg | syncf => exact .reg rfl (by decide) rfl
  case ldob | ldos | lda | ld | ldl | ldt | ldq | ldib | ldis | balx =>
    exact .load rfl (by decide) fun _ _ => rfl
  case stob | stos | st | stl | stt | stq | stib | stis =>
    exact .store rfl (by decide) fun _ _ => rfl
  case bx | callx => exact .address rfl (by decide) fun _ _ => rfl

/-! The byte decoder. -/

/-- The bytes of a word, read as the decoder reads them, are the word. -/
theorem wordOfBytes_bytesOfWord (v : Word) :
    wordOfBytes (v.extractLsb' 0 8) (v.extractLsb' 8 8) (v.extractLsb' 16 8) (v.extractLsb' 24 8) = v :=
  Machine.wordOfMem_bytesOfWord false v

theorem decodeBytes_one {w : Word} (h : hasSecondWord w = false) (after : List Byte) :
    decodeBytes (Machine.bytesOfWord false w ++ after) = (decode w 0).map fun i => (i, after) := by
  have hword := wordOfBytes_bytesOfWord w
  exact (if_neg (by rw [hword, h]; decide)).trans (by rw [hword]; rfl)

theorem decodeBytes_two {w : Word} (h : hasSecondWord w = true) (d : Word) (after : List Byte) :
    decodeBytes (Machine.bytesOfWord false w ++ (Machine.bytesOfWord false d ++ after)) =
      (decode w d).map fun i => (i, after) := by
  have hword := wordOfBytes_bytesOfWord w
  have hnext := wordOfBytes_bytesOfWord d
  exact (if_pos (by rw [hword, h])).trans (by rw [hword, hnext]; rfl)

/-- The bytes of an instruction decode to it, and what follows them is left. -/
theorem decodeBytes_of_decodes {i : Instr} {w : Word} {rest : List Word} (h : Decodes i w rest)
    (after : List Byte) :
    decodeBytes ((encode i).flatMap (Machine.bytesOfWord false) ++ after) = .ok (i, after) := by
  obtain ⟨hwords, hdec, hsecond, hlen⟩ := h
  rw [hwords]
  match rest with
  | [] =>
    exact (decodeBytes_one hsecond after).trans (congrArg (Except.map fun i => (i, after)) hdec)
  | [d] =>
    exact (decodeBytes_two hsecond d after).trans (congrArg (Except.map fun i => (i, after)) hdec)
  | _ :: _ :: _ => simp at hlen

/-! The tables read backwards: an instruction has the opcode that it was decoded by. -/

/-- The opcode byte that an instruction is encoded with. -/
def Instr.opcode (i : Instr) : BitVec 8 := ((encode i).headD 0).extractLsb' 24 8

theorem opcode_of_decodeCtrl {op : Nat} {w : Word} {i : Instr} (h : decodeCtrl op w = .ok i) :
    i.opcode = BitVec.ofNat 8 op := by
  unfold decodeCtrl at h
  split at h <;> cases h <;> exact packCtrl_op ..

theorem opcode_of_decodeCobr {op : Nat} {w : Word} {i : Instr} (h : decodeCobr op w = .ok i) :
    i.opcode = BitVec.ofNat 8 op := by
  unfold decodeCobr at h
  split at h <;> cases h <;> exact packCobr_op ..

/-- The twelve bits of a REG opcode lie in two fields (R162). -/
theorem opcode_of_decodeReg {op : Nat} {w : Word} {i : Instr} (h : decodeReg op w = .ok i) :
    i.opcode = BitVec.ofNat 8 (op / 16) ∧
      ((encode i).headD 0).extractLsb' 7 4 = BitVec.ofNat 4 (op % 16) := by
  unfold decodeReg at h
  split at h <;> cases h <;> exact ⟨packReg_op .., packReg_sub ..⟩

theorem opcode_encodeMem {i : Instr} {op : BitVec 8} {r : BitVec 5} {e : Efa}
    (h : encode i = encodeMem op r e) : i.opcode = op := by
  obtain ⟨w, rest, hw, ho, -⟩ := encodeMem_decodes op r e
  rw [Instr.opcode, h, hw]
  exact BitVec.eq_of_toNat_eq ho

theorem map_eq_ok {α β ε : Type} {f : α → β} {x : Except ε α} {b : β} (h : x.map f = .ok b) :
    ∃ a, f a = b := by
  cases x with
  | error e => cases h
  | ok a => exact ⟨a, Except.ok.inj h⟩

theorem opcode_of_decodeMem {op : Nat} {w d : Word} {i : Instr} (h : decodeMem op w d = .ok i) :
    i.opcode = BitVec.ofNat 8 op := by
  unfold decodeMem at h
  split at h
  case h_21 => cases h
  all_goals
    obtain ⟨e, rfl⟩ := map_eq_ok h
    exact opcode_encodeMem rfl

/-! Reserved addressing (R177). -/

/-- The opcode bytes of the MEM format. -/
def memOpcodes : List Nat := [0x80, 0x82, 0x84, 0x85, 0x86, 0x88, 0x8A, 0x8C, 0x90, 0x92, 0x98, 0x9A,
  0xA0, 0xA2, 0xB0, 0xB2, 0xC0, 0xC2, 0xC8, 0xCA]

/-- A MEM word decodes as its address does. -/
theorem decode_memOpcode {w : Word} (h : opByte w ∈ memOpcodes) (d : Word) :
    ∃ f : Efa → Instr, decode w d = (decodeEfa w d).map f := by
  have hlow : ∀ op ∈ memOpcodes, 0x80 ≤ op := by decide
  rw [decode_mem (hlow _ h)]
  simp only [memOpcodes, List.mem_cons, List.not_mem_nil, or_false] at h
  rcases h with h | h | h | h | h | h | h | h | h | h | h | h | h | h | h | h | h | h | h | h <;>
    exact ⟨_, by rw [h]; rfl⟩

theorem scaleOf_reserved {n : Nat} (h : 4 < n) : scaleOf n = .error .reservedScale := by
  unfold scaleOf
  split
  case h_6 => rfl
  all_goals omega

end Sys2Proof

namespace Sys2Proof.Machine

/-- Where the words at the instruction pointer do not decode, the next instruction is the early fault
INVALID_OPCODE at the state after the fetch (`61_faults.md` R531 step 4). -/
theorem State.runNext_of_reject {s : State} (hip : inDataRam s.ip = false) {e : Reject}
    (h : decode s.fetch.word s.fetch.second = .error e) :
    s.runNext = takeEarlyFault s.fetch.s .invalidOpcode (s.ip + s.fetch.len) := by
  have hlen : s.nextIp s.fetch.word = s.ip + s.fetch.len := by
    unfold State.nextIp State.fetch
    dsimp only
    split <;> simp [*]
  rw [State.runNext, hip, h, hlen]
  rfl

/-- Settles O1, shape by shape: the decoder's table maps the opcode of each instruction to its
constructor, and the fields of the packed word are its operands. -/
theorem decodeEncode : Obligations.DecodeEncode := by
  intro i
  obtain ⟨w, rest, h⟩ := roundTrips i
  exact ⟨⟨w, rest, h.words, h.instr, h.second, h.length⟩, decodeBytes_of_decodes h⟩

/-- Settles O2: each table of the decoder goes by the opcode that the encoder writes. -/
theorem decodedOpcode : Obligations.DecodedOpcode := by
  intro w d i h
  have hbyte : BitVec.ofNat 8 (opByte w) = w.extractLsb' 24 8 := BitVec.ofNat_toNat ..
  unfold decode at h
  split at h
  case isTrue hctrl => exact ⟨(opcode_of_decodeCtrl h).trans hbyte, by omega⟩
  split at h
  case isTrue hcobr => exact ⟨(opcode_of_decodeCobr h).trans hbyte, by omega⟩
  split at h
  case isTrue hreg =>
    obtain ⟨hhi, hlo⟩ := opcode_of_decodeReg h
    have hdiv : regOpcode w / 16 = opByte w := by unfold regOpcode opByte; omega
    have hmod : regOpcode w % 16 = (w.extractLsb' 7 4).toNat := by unfold regOpcode; omega
    rw [hdiv, hbyte] at hhi
    rw [hmod, BitVec.ofNat_toNat] at hlo
    exact ⟨hhi, fun _ _ => hlo⟩
  case isFalse hmem => exact ⟨(opcode_of_decodeMem h).trans hbyte, by omega⟩

/-- Settles O4: what decides is the mode, and in the modes that scale an index the scale. -/
theorem reservedAddressingRejected : Obligations.ReservedAddressingRejected := by
  intro w d hop
  obtain ⟨f, hf⟩ := decode_memOpcode hop d
  have hmode {m : BitVec 4} (h : w.extractLsb' 10 4 = m) (hm : m.getLsbD 2 = true) :=
    decodeEfa_of_mode h hm d
  refine ⟨fun h => ?_, fun h hscale => ?_, fun h => ?_, fun s hip hw hd hrej => ?_⟩
  · rw [hf, hmode h (by decide)]; rfl
  · have hs := scaleOf_reserved hscale
    rcases h with h | h | h <;> rw [hf, hmode h (by decide), hs] <;> rfl
  · simp only [List.mem_cons, List.not_mem_nil, or_false] at h
    rcases h with h | h | h | h <;> rw [hf, hmode h (by decide)] <;> exact ⟨_, rfl⟩
  · have hram : inDataRam s.ip = false := decide_eq_false (by omega)
    rw [← hw, ← hd] at hrej
    rcases hrej with h | h <;> exact State.runNext_of_reject hram h

end Sys2Proof.Machine
end

section
/-! O3, O5, O6, O8, O10, O14, O21: the step up to the instruction it runs (`62_tracing.md` R585), the
fetch (`20_memory.md` R131 to R134), inputs at rest, and what operands and addressing modes stand for. -/

namespace Sys2Proof.Machine

/-! Low bits. -/

theorem and_low_eq_zero_iff {k : Nat} (hk : k ≤ 32) (w : Word) :
    w &&& BitVec.ofNat 32 (2 ^ k - 1) = 0 ↔ w.extractLsb' 0 k = 0 := by
  have hle : 2 ^ k ≤ 2 ^ 32 := Nat.pow_le_pow_right (by decide) hk
  have hmask : (BitVec.ofNat 32 (2 ^ k - 1)).toNat = 2 ^ k - 1 := by
    rw [BitVec.toNat_ofNat]; omega
  rw [← BitVec.toNat_inj, ← BitVec.toNat_inj, BitVec.toNat_and, hmask, Nat.and_two_pow_sub_one_eq_mod,
    BitVec.extractLsb'_toNat, Nat.shiftRight_zero]
  rfl

/-- A word has its low two bits clear. -/
theorem and_three_eq_zero_iff (w : Word) : w &&& 3 = 0 ↔ w.extractLsb' 0 2 = 0 :=
  and_low_eq_zero_iff (k := 2) (by decide) w

/-- A word has its low four bits clear. -/
theorem and_fifteen_eq_zero_iff (w : Word) : w &&& 15 = 0 ↔ w.extractLsb' 0 4 = 0 :=
  and_low_eq_zero_iff (k := 4) (by decide) w

/-- The tables are aligned (R111). -/
theorem Tables.aligned_iff (t : Tables) :
    t.aligned = true ↔ t.sptBase &&& 3 = 0 ∧ t.intTableBase &&& 3 = 0 ∧ t.faultTableBase &&& 3 = 0 ∧
      t.ctrlTableBase &&& 15 = 0 := by
  simp only [Tables.aligned, Bool.and_eq_true, beq_iff_eq, and_three_eq_zero_iff,
    and_fifteen_eq_zero_iff, and_assoc]

/-! The fetch. -/

/-- Fetching a word draws free values and may end the use of the locked copy. -/
theorem State.afterFetch_eq (s : State) (a : Word) :
    ∃ d f, s.afterFetch a = { s with draws := d, icache := { s.icache with fetchingLocked := f } } ∧
      (f = true → s.icache.fetchingLocked = true) :=
  ⟨_, _, rfl, fun h => (Bool.and_eq_true_iff.1 h).1⟩

/-- Fetching an instruction draws free values and may end the use of the locked copy. -/
theorem State.fetch_eq (s : State) :
    ∃ d f, s.fetch.s = { s with draws := d, icache := { s.icache with fetchingLocked := f } } ∧
      (f = true → s.icache.fetchingLocked = true) := by
  obtain ⟨d, f, h, hf⟩ := s.afterFetch_eq s.ip
  unfold State.fetch
  dsimp only
  split
  · obtain ⟨d', f', h', hf'⟩ := (s.afterFetch s.ip).afterFetch_eq (s.ip + 4)
    rw [h] at h' hf'
    exact ⟨d', f', by rw [h, h'], fun hb => hf (hf' hb)⟩
  · exact ⟨d, f, h, hf⟩

/-- A word that is not changed since the last consistency point is fetched as it is (R131). -/
theorem State.fetchWord_clean {s : State} {a : Word} (hl : s.icache.fetchingLocked = false)
    (h : s.icache.image.readWord (s.bigEndian a) a = s.readWord a) :
    s.fetchWord a = (s.readWord a, 0) ∧ s.afterFetch a = s := by
  have hlocked : s.lockedWord a = none := by rw [State.lockedWord, hl]; rfl
  have hword : s.fetchWord a = (s.readWord a, 0) := by
    rw [State.fetchWord, hlocked, h]
    exact if_pos rfl
  refine ⟨hword, ?_⟩
  rw [State.afterFetch, hword, hl, Bool.false_and, ← hl]
  rfl

/-- The instruction at the instruction pointer runs, where its words are fetched as they are. -/
theorem State.runNext_clean {s : State} {i : Instr} (hip : inDataRam s.ip = false)
    (hl : s.icache.fetchingLocked = false)
    (h1 : s.icache.image.readWord (s.bigEndian s.ip) s.ip = s.readWord s.ip)
    (h2 : s.icache.image.readWord (s.bigEndian (s.ip + 4)) (s.ip + 4) = s.readWord (s.ip + 4))
    (hd : decode (s.readWord s.ip)
      (if hasSecondWord (s.readWord s.ip) then s.readWord (s.ip + 4) else 0) = .ok i) :
    s.runNext = exec i s := by
  obtain ⟨hw1, ha1⟩ := State.fetchWord_clean hl h1
  obtain ⟨hw2, ha2⟩ := State.fetchWord_clean hl h2
  have hfetch : s.fetch = Fetched.mk (s.readWord s.ip)
      (if hasSecondWord (s.readWord s.ip) then s.readWord (s.ip + 4) else 0)
      (if hasSecondWord (s.readWord s.ip) then 8 else 4) s := by
    rw [State.fetch, hw1, ha1, hw2, ha2]
    split <;> rfl
  rw [State.runNext, hip, hfetch, hd]
  rfl

/-! The boundary between instructions (R585). -/

/-- With no reset due and the tables aligned, a step goes on from the sampled inputs. -/
theorem step_eq_afterSampling {s : State} (hr : s.resetDue = false) (ht : s.tables.aligned = true) :
    step s = s.sampleInputs.afterSampling := by
  have hpass : s.pass = s.sampleInputs.afterSampling := if_pos ht
  unfold step State.boundary
  cases he : s.intc.events with
  | nil => exact hpass
  | cons e rest =>
    have hpower : e.reset = false := by rw [← hr, State.resetDue, he]
    exact (if_neg (ne_true_of_eq_false hpower)).trans hpass

/-- While an NMI is in service nothing is delivered (`60_exceptions.md` R512). -/
theorem State.afterSampling_in_nmi {s : State} (h : s.intc.nmiDepth.isSome = true) :
    s.afterSampling = s.afterInterrupts := by
  have hready : s.nmiReady = false := by
    rw [State.nmiReady, Option.isNone_eq_false_iff.2 h, Bool.and_false]
  rw [State.afterSampling, hready, h]
  rfl

/-- Where the delivery test takes nothing, what it leaves goes on. -/
theorem State.afterSampling_quiet {s t : State} (hn : s.nmiReady = false)
    (hs : s.intc.nmiDepth = none) (hm : s.intMode ≠ 3) (hd : s.deliver = .quiet t) :
    s.afterSampling = t.afterInterrupts := by
  rw [State.afterSampling, hn, hs, if_neg (by decide), if_neg (by decide), if_neg hm, hd]

theorem State.afterInterrupts_quiet {s : State} (h : s.tfp = false) : s.afterInterrupts = s.runNext := by
  rw [State.afterInterrupts, h]; rfl

/-! Inputs at rest. -/

/-- With no event to come, no turn left and all pins high, nothing is latched. -/
theorem State.sampleInputs_rest {s : State} (he : s.intc.events = []) (hx : s.intc.xint = 0xFF)
    (ht : s.turns = []) : s.sampleInputs = s := by
  have hpins : s.detectedPins s.intc.xint = 0#8 := by
    rw [State.detectedPins, hx, show ~~~(0xFF : BitVec 8) = 0#8 from rfl, BitVec.and_zero,
      BitVec.zero_and]
  have hlatch : s.intc.ipnd ||| (s.detectedPins s.intc.xint).zeroExtend 32 |||
      ((0 : BitVec 4).zeroExtend 32 <<< 8) = s.intc.ipnd := by rw [hpins]; simp
  have hturns : { s with turns := [] } = s := by rw [← ht]
  unfold State.sampleInputs
  rw [he]
  dsimp only
  rw [hturns, State.latch, hlatch, Bool.and_not_self, Bool.or_false]

/-- A source requests only with its bits of IPND and IMSK set. -/
theorem State.requests_bits {s : State} {k : Nat} (h : s.requests k = true) :
    s.intc.ipnd.getLsbD k = true ∧ s.intc.imsk.getLsbD k = true := by
  simp only [State.requests, Bool.and_eq_true] at h
  obtain ⟨⟨⟨-, hp⟩, hm⟩, -⟩ := h
  refine ⟨hp, ?_⟩
  unfold State.effectiveMask at hm
  split at hm
  · exact absurd hm (by simp)
  · exact hm

/-- High pins show no vector that counts. -/
theorem State.expandedVector_rest {s : State} (hx : s.intc.xint = 0xFF) : s.expandedVector = 0 := by
  have hpin : s.pinVector = 0 ∨ s.pinVector = 2 := by
    unfold State.pinVector
    rw [hx]
    split
    · exact .inl rfl
    · exact .inr rfl
    · exact .inl rfl
  unfold State.expandedVector
  rcases hpin with h | h <;> rw [h] <;> simp

theorem State.hardwareVector_rest {s : State} (hx : s.intc.xint = 0xFF)
    (hp : s.intc.ipnd &&& s.intc.imsk = 0) : s.hardwareVector = 0 := by
  have hsources : s.sources = [] := by
    refine List.filter_eq_nil_iff.2 fun k _ hreq => ?_
    obtain ⟨h1, h2⟩ := State.requests_bits hreq
    have := congrArg (fun w : Word => w.getLsbD k) hp
    simp [h1, h2] at this
  rw [State.hardwareVector, hsources, State.expandedVector_rest hx]
  rfl

/-! Operands. -/

theorem State.value_reg (s : State) (n : RegNum) : s.value (.reg n) 0 = s.getReg n := by
  rw [State.value, BitVec.add_zero]

theorem State.putValue_reg (s : State) (n : RegNum) (v : Word) :
    s.putValue (.reg n) 0 v = s.setReg n v := by
  rw [State.putValue, BitVec.add_zero]

/-! The statements. -/

/-- Settles O3. -/
theorem decodeKnownWords : Obligations.DecodeKnownWords :=
  ⟨rfl, rfl, rfl, rfl, rfl, rfl, rfl⟩

/-- Settles O5: nothing that comes before the instruction in the loop of R585 has anything to do. -/
theorem stepRunsInstruction : Obligations.StepRunsInstruction := by
  intro s t i hr ht hn hquiet htfp hip hl h1 h2 hd
  have hsample : s.sampleInputs.afterSampling = t.afterInterrupts := by
    rcases hquiet with ⟨hnmi, rfl⟩ | ⟨hnmi, hm, hdel⟩
    · exact State.afterSampling_in_nmi hnmi
    · exact State.afterSampling_quiet hn hnmi hm hdel
  rw [step_eq_afterSampling hr ht, hsample, State.afterInterrupts_quiet htfp]
  exact State.runNext_clean hip hl h1 h2 hd

/-- Settles O6. -/
theorem quietInputs : Obligations.QuietInputs := by
  intro s he
  refine ⟨fun hx ht => ⟨State.sampleInputs_rest he hx ht, fun hp hsw => ?_⟩, fun hmis => ?_⟩
  · simp [State.deliver, State.hardwareVector_rest hx hp, hsw]
  · have hal : s.tables.aligned = false := by
      rw [Bool.eq_false_iff, ne_eq, Tables.aligned_iff]
      tauto
    rw [step, State.boundary, he]
    dsimp only
    rw [State.pass, hal]
    rfl

/-- Settles O8. -/
theorem undefinedOpcodes : Obligations.UndefinedOpcodes := by
  intro s
  refine ⟨fun e hip hd => ⟨State.runNext_of_reject hip hd, ?_⟩, fun hip => ?_⟩
  · obtain ⟨d, f, h, -⟩ := s.fetch_eq
    rw [h]
    exact ⟨rfl, rfl, rfl, rfl, rfl, rfl, rfl⟩
  · exact State.runNext_of_inDataRam (decide_eq_true hip)

/-- Settles O10. -/
theorem resetInvariant : Obligations.ResetInvariant := rfl

/-- Settles O14: the scale factor of a scale code is a power of two (R176). -/
theorem effectiveAddresses : Obligations.EffectiveAddresses := by
  intro s ip a i k o d
  have hscale : scaleFactor k = BitVec.ofNat 32 (2 ^ k.code.toNat) := by cases k <;> rfl
  have hip : ip + 8 + d = ip + d + 8 := by rw [BitVec.add_assoc, BitVec.add_comm 8, ← BitVec.add_assoc]
  rw [← hscale]
  exact ⟨rfl, rfl, rfl, rfl, rfl, rfl, rfl, rfl, hip⟩

/-- Settles O21. -/
theorem operandValues : Obligations.OperandValues := by
  intro s n m l v
  refine ⟨s.value_reg n, rfl, rfl, rfl, rfl, rfl, ?_, rfl, rfl, rfl⟩
  rw [State.putValue_reg, State.getReg_setReg]

end Sys2Proof.Machine
end

section
/-! What every instruction keeps (O11, O58, O59, O60). An instruction that gives a next state is tame (it
keeps the invariant and user mode, in user mode the control of the machine, and the condition code where
it may not write it), or it enters a handler or a system procedure, which keeps the same but the mode.
The first part says this of the operations on states, the second of the operations on a run, the third
of the shapes of the instructions. -/

namespace Sys2Proof.Machine

/-! Word addresses. -/

theorem aligned_add {a b : Word} (ha : a.extractLsb' 0 2 = 0) (hb : b.extractLsb' 0 2 = 0) :
    (a + b).extractLsb' 0 2 = 0 := by
  rw [← and_three_eq_zero_iff, ← BitVec.toNat_inj, BitVec.toNat_and] at ha hb ⊢
  have hmod (n : Nat) : n &&& (3 : Word).toNat = n % 4 := Nat.and_two_pow_sub_one_eq_mod n 2
  rw [hmod] at ha hb ⊢
  rw [BitVec.toNat_add]
  change _ = 0 at ha hb ⊢
  omega

theorem alignTarget_aligned (a : Word) : (alignTarget a).extractLsb' 0 2 = 0 := by
  rw [← and_three_eq_zero_iff, alignTarget, BitVec.and_assoc]
  exact BitVec.and_zero

theorem ctrlOffset_aligned (d : BitVec 22) : (ctrlOffset d).extractLsb' 0 2 = 0 := by
  refine BitVec.eq_of_getLsbD_eq fun i hi => ?_
  have h24 : i < 24 := by omega
  rw [ctrlOffset, BitVec.getLsbD_extractLsb', Nat.zero_add, BitVec.getLsbD_signExtend, if_pos h24,
    BitVec.getLsbD_append, if_pos hi]
  simp

theorem cobrOffset_aligned (d : BitVec 11) : (cobrOffset d).extractLsb' 0 2 = 0 := by
  refine BitVec.eq_of_getLsbD_eq fun i hi => ?_
  have h13 : i < 13 := by omega
  rw [cobrOffset, BitVec.getLsbD_extractLsb', Nat.zero_add, BitVec.getLsbD_signExtend, if_pos h13,
    BitVec.getLsbD_append, if_pos hi]
  simp

theorem Efa.len_aligned (e : Efa) : e.len.extractLsb' 0 2 = 0 := by 
  have hlen : e.len = 4 ∨ e.len = 8 := by cases e <;> simp [Efa.len]
  rcases hlen with h | h <;> rw [h] <;> decide

/-! The invariant, part by part. -/

/-- The parts of `State.Inv` by name. -/
structure State.Invariant (s : State) : Prop where
  mem : s.mem.wf = true
  image : s.icache.image.wf = true
  ip : s.ip.extractLsb' 0 2 = 0
  tables : s.tables.aligned = true
  size : 1 ≤ s.config.regcacheSets ∧ s.config.regcacheSets ≤ 15
  rcache : s.rcache.length ≤ s.config.regcacheSets
  locked : s.lockedOk = true
  windows : s.trace.tcDelay.left ≤ 4 ∧ s.trace.teDelay.left ≤ 4
  boot : s.boot.ok = true

theorem State.inv_iff (s : State) : s.Inv = true ↔ s.Invariant := by
  have hparts : s.Inv = true ↔ s.mem.wf = true ∧ s.icache.image.wf = true ∧
      s.ip.extractLsb' 0 2 = 0 ∧ s.tables.aligned = true ∧
      ((1 ≤ s.config.regcacheSets ∧ s.config.regcacheSets ≤ 15) ∧
        s.rcache.length ≤ s.config.regcacheSets) ∧ s.lockedOk = true ∧
      (s.trace.tcDelay.left ≤ 4 ∧ s.trace.teDelay.left ≤ 4) ∧ s.boot.ok = true := by
    simp [State.Inv, State.ipAligned, State.rcacheOk, State.windowsOk, and_assoc]
  rw [hparts]
  exact ⟨fun ⟨h1, h2, h3, h4, ⟨h5, h6⟩, h7, h8, h9⟩ => ⟨h1, h2, h3, h4, h5, h6, h7, h8, h9⟩,
    fun ⟨h1, h2, h3, h4, h5, h6, h7, h8, h9⟩ => ⟨h1, h2, h3, h4, ⟨h5, h6⟩, h7, h8, h9⟩⟩

/-- With the locked copy out of use, what is left of its part of the invariant is the block. -/
theorem State.lockedOk_of_not_fetching {s t : State} (h : s.lockedOk = true)
    (hl : t.icache.locked = s.icache.locked) (hf : t.icache.fetchingLocked = false) :
    t.lockedOk = true := by
  unfold State.lockedOk at h ⊢
  rw [hl, hf]
  split at h
  · rfl
  · exact h

/-! Tame changes of the state. -/

theorem State.SameControl.refl (s : State) : s.SameControl s :=
  ⟨rfl, rfl, rfl, rfl, rfl, rfl, rfl, rfl, rfl, rfl⟩

theorem State.SameControl.trans {s t u : State} (h : s.SameControl t) (h' : t.SameControl u) :
    s.SameControl u where
  ipnd := h'.ipnd.trans h.ipnd
  imsk := h'.imsk.trans h.imsk
  swPriority := h'.swPriority.trans h.swPriority
  dma := h'.dma.trans h.dma
  ctrl := h'.ctrl.trans h.ctrl
  tables := h'.tables.trans h.tables
  config := h'.config.trans h.config
  mode := h'.mode.trans h.mode
  image := h'.image.trans h.image
  locked := h'.locked.trans h.locked

/-- What an instruction keeps that enters no handler and no supervisor procedure; `w` says whether it
may write the condition code. -/
structure State.Tame (w : Bool) (s t : State) : Prop where
  inv : s.Invariant → t.Invariant
  user : s.em = false → t.em = false ∧ s.SameControl t
  cc : w = false → t.cc = s.cc

theorem State.Tame.refl (w : Bool) (s : State) : s.Tame w s :=
  ⟨id, fun h => ⟨h, .refl s⟩, fun _ => rfl⟩

theorem State.Tame.trans {w : Bool} {s t u : State} (h : s.Tame w t) (h' : t.Tame w u) : s.Tame w u where
  inv hs := h'.inv (h.inv hs)
  user hs := ⟨(h'.user (h.user hs).1).1, (h.user hs).2.trans (h'.user (h.user hs).1).2⟩
  cc hw := (h'.cc hw).trans (h.cc hw)

section
variable (w : Bool) (s : State)

/-- A change of registers, AC but for its condition code, TC, the free values and the turns. -/
theorem State.Tame.registers {s : State} (l g : Vector Word 16) {ac : Word} (tc : Word) (d : Nat)
    (ts : List (List Host.Cell)) (hac : w = false → ac.extractLsb' 0 3 = s.cc) :
    s.Tame w { s with locals := l, globals := g, ac := ac, tc := tc, draws := d, turns := ts } where
  inv h := ⟨h.mem, h.image, h.ip, h.tables, h.size, h.rcache, h.locked, h.windows, h.boot⟩
  user h := ⟨h, ⟨rfl, rfl, rfl, rfl, rfl, rfl, rfl, rfl, rfl, rfl⟩⟩
  cc := hac

theorem State.Tame.setReg (n : RegNum) (v : Word) : s.Tame w (s.setReg n v) := by
  unfold State.setReg
  split <;> exact .registers w _ _ s.tc s.draws s.turns fun _ => rfl

/-- A change of memory and the turns. -/
theorem State.Tame.memory {s t : State}
    (h : ∃ m ts, t = { s with mem := m, turns := ts } ∧ (s.mem.wf = true → m.wf = true)) :
    s.Tame w t := by
  obtain ⟨m, ts, rfl, hw⟩ := h
  exact ⟨fun h => ⟨hw h.mem, h.image, h.ip, h.tables, h.size, h.rcache, h.locked, h.windows, h.boot⟩,
    fun h => ⟨h, ⟨rfl, rfl, rfl, rfl, rfl, rfl, rfl, rfl, rfl, rfl⟩⟩, fun _ => rfl⟩

/-- A destination that is a special function register only in supervisor mode. -/
def State.MayWrite (s : State) (o : Operand) : Prop := ∀ n, o = .sfr n → s.em = true

/-- What only changes in supervisor mode needs to keep the invariant and the condition code. -/
theorem State.Tame.of_supervisor {s t : State} (h : s.em = true) (hi : s.Invariant → t.Invariant)
    (hcc : w = false → t.cc = s.cc) : s.Tame w t :=
  ⟨hi, fun hs => (by rw [h] at hs; cases hs), hcc⟩

theorem State.Invariant.setSfr {s : State} (hs : s.Invariant) (n : BitVec 5) (v : Word) :
    (s.setSfr n v).Invariant := by
  unfold State.setSfr
  split <;>
    exact ⟨hs.mem, hs.image, hs.ip, hs.tables, hs.size, hs.rcache, hs.locked, hs.windows, hs.boot⟩

theorem State.Tame.putValue {s u : State} (h : s.Tame w u) {o : Operand} (ho : s.MayWrite o) (k : Nat)
    (v : Word) : s.Tame w (u.putValue o k v) := by
  cases o with
  | reg n => exact h.trans (.setReg w u _ v)
  | sfr n =>
    exact .of_supervisor w (ho n rfl) (fun hs => (h.inv hs).setSfr _ v) fun hw => by
      rw [← h.cc hw, State.cc, State.putValue_ac, State.cc]
  | lit n => exact h
  | bad => exact h

theorem State.Tame.putWords {s u : State} (h : s.Tame w u) {o : Operand} (ho : s.MayWrite o) (k : Nat)
    (ws : List Word) : s.Tame w (u.putWords o k ws) := by
  induction ws generalizing u k with
  | nil => exact h
  | cons v ws ih => exact ih (State.Tame.putValue w h ho k v) (k + 1)

theorem State.Tame.setCc (c : BitVec 3) : s.Tame true (s.setCc c) :=
  .registers true _ _ s.tc s.draws s.turns nofun

/-- A jump to a word address. -/
theorem State.Tame.goTo {a : Word} (h : s.Invariant → a.extractLsb' 0 2 = 0) : s.Tame w (s.goTo a) where
  inv hs := ⟨hs.mem, hs.image, h hs, hs.tables, hs.size, hs.rcache,
    State.lockedOk_of_not_fetching hs.locked rfl rfl, hs.windows, hs.boot⟩
  user hs := ⟨hs, ⟨rfl, rfl, rfl, rfl, rfl, rfl, rfl, rfl, rfl, rfl⟩⟩
  cc _ := rfl

/-- The mode is bit 1 of PC. -/
theorem putBit_em {v : Word} {k : Nat} (hk : k ≠ 1) (b : Bool) :
    (putBit v k b).getLsbD 1 = v.getLsbD 1 := by
  have hne : ¬(1 - k = 0 ∧ k ≤ 1) := by omega
  cases b <;> simp only [putBit, Bool.false_eq_true, if_false, if_true, BitVec.getLsbD_or,
    BitVec.getLsbD_and, BitVec.getLsbD_not, BitVec.getLsbD_shiftLeft] <;>
    rcases Nat.lt_or_ge 1 k with h | h <;> simp [h] <;> omega

theorem State.Tame.signal (f : Word) (te : Bool) (a : Word) : s.Tame w (s.signal f te a) := by
  obtain ⟨tc, pc, ta, h, hpc⟩ := s.signal_eq f te a
  rw [h]
  refine ⟨fun hs => ⟨hs.mem, hs.image, hs.ip, hs.tables, hs.size, hs.rcache, hs.locked, hs.windows,
    hs.boot⟩, fun hs => ⟨?_, ⟨rfl, rfl, rfl, rfl, rfl, rfl, rfl, rfl, rfl, rfl⟩⟩, fun _ => rfl⟩
  rcases hpc with rfl | rfl
  · exact hs
  · exact (putBit_em (by decide) true).trans hs

theorem State.Invariant.setPctl {s : State} (hs : s.Invariant) (v : Word) : (s.setPctl v).Invariant :=
  ⟨hs.mem, hs.image, hs.ip, hs.tables, hs.size, hs.rcache, hs.locked, ⟨hs.windows.1, Nat.zero_le 4⟩,
    hs.boot⟩

/-- A new PC, in user mode one of user mode. -/
theorem State.Tame.setPctl {s u : State} (h : s.Tame w u) {v : Word}
    (hv : s.em = false → v.getLsbD 1 = false) : s.Tame w (u.setPctl v) where
  inv hs := (h.inv hs).setPctl v
  user hs := ⟨hv hs, (h.user hs).2.trans ⟨rfl, rfl, rfl, rfl, rfl, rfl, rfl, rfl, rfl, rfl⟩⟩
  cc := h.cc

theorem State.Tame.depth (d : Int) : s.Tame w { s with depth := d } :=
  ⟨fun hs => ⟨hs.mem, hs.image, hs.ip, hs.tables, hs.size, hs.rcache, hs.locked, hs.windows, hs.boot⟩,
    fun hs => ⟨hs, ⟨rfl, rfl, rfl, rfl, rfl, rfl, rfl, rfl, rfl, rfl⟩⟩, fun _ => rfl⟩

/-- The start of an instruction: the instruction pointer goes on, the windows age. -/
theorem State.Tame.begin {len : Word} (h : len.extractLsb' 0 2 = 0) : s.Tame w (s.begin len).s := by
  have hwin : s.trace.tcDelay.left ≤ 4 ∧ s.trace.teDelay.left ≤ 4 →
      s.ageWindows.trace.tcDelay.left ≤ 4 ∧ s.ageWindows.trace.teDelay.left ≤ 4 := by
    unfold State.ageWindows
    split
    · exact id
    · dsimp only; omega
  refine ⟨fun hs => ⟨?_, ?_, aligned_add hs.ip h, ?_, ?_, ?_, ?_, hwin hs.windows, ?_⟩,
    fun hs => ⟨?_, ?_⟩, fun _ => ?_⟩
  · simpa [State.begin] using hs.mem
  · simpa [State.begin] using hs.image
  · simpa [State.begin] using hs.tables
  · simpa [State.begin] using hs.size
  · simpa [State.begin] using hs.rcache
  · simpa [State.begin, State.lockedOk] using hs.locked
  · simpa [State.begin] using hs.boot
  · simpa [State.begin, State.em] using hs
  · constructor <;> simp [State.begin]
  · simp [State.begin, State.cc]

/-- A new frame. -/
theorem State.Tame.newFrame (rip nfp : Word) (p : Bool) (rt : BitVec 3) :
    s.Tame w (s.newFrame rip nfp p rt) := by
  obtain ⟨m, r, ts, h, hw, -, hb⟩ := s.newFrame_eq rip nfp p rt
  rw [h]
  exact ⟨fun hs => ⟨hw hs.mem, hs.image, hs.ip, hs.tables, hs.size, hb hs.size.1 hs.rcache,
    State.lockedOk_of_not_fetching hs.locked rfl rfl, hs.windows, hs.boot⟩,
    fun hs => ⟨hs, ⟨rfl, rfl, rfl, rfl, rfl, rfl, rfl, rfl, rfl, rfl⟩⟩, fun _ => rfl⟩

/-- A frame is left for the one that its caller saved. -/
theorem State.Tame.restoreLocals (frame : Word) : s.Tame w (s.restoreLocals frame) := by
  unfold State.restoreLocals
  split
  · refine ⟨fun hs => ⟨hs.mem, hs.image, hs.ip, hs.tables, hs.size, ?_, hs.locked, hs.windows, hs.boot⟩,
      fun hs => ⟨hs, ⟨rfl, rfl, rfl, rfl, rfl, rfl, rfl, rfl, rfl, rfl⟩⟩, fun _ => rfl⟩
    have := hs.rcache
    simp only [List.length_dropLast]
    omega
  · exact (State.Tame.memory w (s.reloadSet_eq frame)).trans
      (.registers w _ _ _ _ _ fun _ => rfl)

theorem State.Tame.flushSets (cs : List SavedSet) : s.Tame w (s.flushSets cs) := by
  induction cs generalizing s with
  | nil => exact .refl w s
  | cons c cs ih => exact (State.Tame.memory w (s.writeQuads_eq _ _)).trans (ih _)

theorem State.Tame.turn : s.Tame w s.turn := by
  obtain ⟨m, ts, h⟩ := s.turn_eq
  exact .memory w ⟨m, ts, h, fun hs => by have := State.turn_wf hs; rwa [h] at this⟩

theorem State.Tame.writeWords (a : Word) (ws : List Word) : s.Tame w (s.writeWords a ws) := by
  obtain ⟨m, h⟩ := s.writeWords_eq a ws
  exact .memory w ⟨m, s.turns, h, fun hs => by have := State.writeWords_wf hs a ws; rwa [h] at this⟩

theorem State.Tame.writeWord (a v : Word) : s.Tame w (s.writeWord a v) := .writeWords w s a [v]

theorem State.Tame.lockedTurn (a : Word) (n : Nat) : s.Tame w (s.lockedTurn a n) := by
  obtain ⟨m, ts, h⟩ := s.lockedTurn_eq a n
  exact .memory w ⟨m, ts, h, fun hs => by have := State.lockedTurn_wf hs a n; rwa [h] at this⟩

end

/-! Entering a handler. -/

/-- What an instruction keeps that enters a frame of return type `kind`, whatever the mode there. -/
structure State.Enters (w : Bool) (s t : State) (kind : BitVec 3) : Prop where
  inv : s.Invariant → t.Invariant
  user : s.em = false → s.SameControl t
  cc : w = false → t.cc = s.cc
  depth : t.depth = s.depth + 1
  kind : t.pfp &&& 7 = kind.zeroExtend 32

/-- The return type is the low three bits of PFP (`44_call_return.md` R404). -/
theorem pfp_kind (fp : Word) (kind : BitVec 3) (p : Bool) :
    putBit ((fp &&& 0xFFFFFFF0) ||| kind.zeroExtend 32) 3 p &&& 7 = kind.zeroExtend 32 := by
  have hput (w : Word) : putBit w 3 p &&& 7 = w &&& 7 := by
    cases p
    · exact (BitVec.and_assoc ..).trans (congrArg (w &&& ·) (by decide))
    · exact BitVec.and_or_distrib_right.trans ((congrArg ((w &&& 7) ||| ·) (by decide)).trans BitVec.or_zero)
  have hlow : ∀ k : BitVec 3, (k.zeroExtend 32 : Word) &&& 7 = k.zeroExtend 32 := by decide
  have hhigh : fp &&& 0xFFFFFFF0 &&& 7 = 0#32 :=
    (BitVec.and_assoc ..).trans ((congrArg (fp &&& ·) (by decide)).trans BitVec.and_zero)
  rw [hput, BitVec.and_or_distrib_right, hhigh, hlow, BitVec.zero_or]

theorem State.Tame.enters {w : Bool} {s t u : State} {kind : BitVec 3} (h : s.Tame w t)
    (hd : t.depth = s.depth) (h' : t.Enters w u kind) : s.Enters w u kind where
  inv hs := h'.inv (h.inv hs)
  user hs := (h.user hs).2.trans (h'.user (h.user hs).1)
  cc hw := (h'.cc hw).trans (h.cc hw)
  depth := by rw [h'.depth, hd]
  kind := h'.kind

/-- A fault entry (`61_faults.md` R537). -/
theorem State.enterFault_enters {s t : State} {c : FaultCode} {a rip : Word} (w : Bool)
    (h : s.enterFault c a rip = .ok t) : s.Enters w t 1 := by
  obtain ⟨target, kind, m, r, ts, tc, pc, ta, ht, rfl, hw, -, hb, -⟩ := State.enterFault_cases h
  obtain ⟨v, rfl⟩ := State.faultTarget_aligned ht
  refine ⟨fun hs => ⟨hw hs.mem, hs.image, alignTarget_aligned v, hs.tables, hs.size,
    hb hs.size.1 hs.rcache, State.lockedOk_of_not_fetching hs.locked rfl rfl,
    ⟨hs.windows.1, Nat.zero_le 4⟩, hs.boot⟩,
    fun _ => ⟨rfl, rfl, rfl, rfl, rfl, rfl, rfl, rfl, rfl, rfl⟩, fun _ => rfl, rfl, ?_⟩
  exact pfp_kind s.fp 1 _

/-- A fault that is taken at a tame state enters its handler. -/
theorem takeFault_enters {w : Bool} {s0 s u t : State} {c : FaultCode} {next : Word}
    (hu : s.Tame w u) (hd : u.depth = s.depth) (h : takeFault s0 u c next = .next t) :
    s.Enters w t 1 := by
  obtain ⟨d, rip, he⟩ := takeFault_next h
  exact hu.enters hd ((State.Tame.registers w u.locals u.globals u.tc d u.turns fun _ => rfl).enters rfl
    (State.enterFault_enters w he))

theorem takeEarlyFault_enters {w : Bool} {s t : State} {c : FaultCode} {next : Word}
    (h : takeEarlyFault s c next = .next t) : s.Enters w t 1 :=
  takeFault_enters (u := { s with turns := [] })
    (.registers w s.locals s.globals s.tc s.draws [] fun _ => rfl) rfl h

end Sys2Proof.Machine
end

section
/-! What every instruction keeps, continued: the operations on a run, and the shapes of the
instructions. -/

namespace Sys2Proof.Machine

/-! Runs. -/

/-- An instruction under way that has kept what it must, and has entered no frame. -/
structure Run.Tame (w : Bool) (s : State) (r : Run) : Prop where
  state : s.Tame w r.s
  late : s.em = false → r.late = none
  depth : r.s.depth = s.depth

/-- An instruction that has done its work: only one that has entered no frame may note a fault. -/
structure Run.Done (w : Bool) (s : State) (r : Run) : Prop where
  state : s.Tame w r.s
  late : s.em = false → r.late = none
  post : r.post = none ∨ r.s.depth = s.depth

/-- What an instruction other than a system call comes to: it is tame, or it enters a fault handler. -/
def State.Ends (w : Bool) (s t : State) : Prop := s.Tame w t ∨ s.Enters w t 1

section
variable {w : Bool} {s : State} {r r' : Run}

theorem Run.Tame.done (h : r.Tame w s) : r.Done w s := ⟨h.state, h.late, .inr h.depth⟩

theorem State.begin_tame (w : Bool) (s : State) {len : Word} (h : len.extractLsb' 0 2 = 0) :
    (s.begin len).Tame w s :=
  ⟨.begin w s h, fun _ => rfl, State.ageWindows_depth s⟩

theorem Run.Tame.modify (h : r.Tame w s) {f : State → State} (hf : r.s.Tame w (f r.s))
    (hd : (f r.s).depth = r.s.depth) : (r.modify f).Tame w s :=
  ⟨h.state.trans hf, h.late, hd.trans h.depth⟩

theorem Run.Tame.note (h : r.Tame w s) (flags : Word) : (r.note flags).Tame w s :=
  ⟨h.state, h.late, h.depth⟩

theorem Run.Tame.put (h : r.Tame w s) {o : Operand} (ho : s.MayWrite o) (k : Nat) (v : Word) :
    (r.put o k v).Tame w s :=
  ⟨h.state.putValue w ho k v, h.late, (State.putValue_depth ..).trans h.depth⟩

theorem Run.Tame.putAll (h : r.Tame w s) {o : Operand} (ho : s.MayWrite o) (k : Nat)
    (ws : List Word) : (r.putAll o k ws).Tame w s := by
  rw [Run.putAll_eq]
  exact ⟨h.state.putWords w ho k ws, h.late, (State.putWords_depth ..).trans h.depth⟩

theorem Run.Tame.setCc (h : r.Tame true s) (c : BitVec 3) : (r.setCc c).Tame true s :=
  h.modify (.setCc _ c) rfl

/-- A jump whose target is a word address if the state that the instruction began in is sound. -/
theorem State.Tame.jump {u : State} (h : s.Tame w u) {a : Word}
    (ha : s.Invariant → a.extractLsb' 0 2 = 0) : s.Tame w (u.goTo a) where
  inv hs := (State.Tame.goTo w u fun _ => ha hs).inv (h.inv hs)
  user hs := ⟨(h.user hs).1,
    (h.user hs).2.trans ⟨rfl, rfl, rfl, rfl, rfl, rfl, rfl, rfl, rfl, rfl⟩⟩
  cc := h.cc

theorem Run.Tame.jump (h : r.Tame w s) {a : Word} (ha : s.Invariant → a.extractLsb' 0 2 = 0) :
    (r.jump a).Tame w s :=
  ⟨h.state.jump ha, h.late, h.depth⟩

theorem Run.Tame.branchIf (h : r.Tame w s) (taken : Bool) {a : Word}
    (ha : s.Invariant → a.extractLsb' 0 2 = 0) : (r.branchIf taken a).Tame w s := by
  cases taken with
  | false => exact h
  | true => exact (h.jump ha).note evBranch

theorem Run.Tame.link (h : r.Tame w s) : r.link.Tame w s := by
  unfold Run.link
  split
  · exact (h.modify (.setReg w r.s _ _) (State.setReg_depth ..)).note evCall
  · exact h

/-- Setting AC.of leaves the condition code. -/
theorem putBit_cc (v : Word) (b : Bool) : (putBit v 8 b).extractLsb' 0 3 = v.extractLsb' 0 3 := by
  have hbit : ∀ j : Fin 3, (1#32 <<< 8).getLsbD j.val = false := by decide
  refine BitVec.eq_of_getLsbD_eq fun i hi => ?_
  have h32 : i < 32 := by omega
  have hb := hbit ⟨i, hi⟩
  simp only [BitVec.getLsbD_extractLsb', hi, decide_true, Bool.true_and, Nat.zero_add]
  cases b
  · simp only [putBit, Bool.false_eq_true, if_false, BitVec.getLsbD_and, BitVec.getLsbD_not, hb, h32,
      decide_true, Bool.not_false, Bool.and_true]
  · simp only [putBit, if_true, BitVec.getLsbD_or, hb, Bool.or_false]

theorem Run.Tame.overflow (h : r.Tame w s) (ov : Bool) : (r.overflow ov).Tame w s := by
  unfold Run.overflow
  split_ifs
  · exact h.modify (.registers w _ _ _ _ _ fun _ => putBit_cc ..) rfl
  · exact ⟨h.state, h.late, h.depth⟩
  · exact h

theorem Run.Tame.access (h : r.Tame w s) {a : Word} {n : Nat} {k : AccessKind}
    (hr : r.access a n k = .ok r') : r'.Tame w s := by
  obtain ⟨rfl, -⟩ := Run.access_cases hr
  exact h.note _

theorem Run.Tame.readRequests (h : r.Tame w s) (a : Word) (n k j : Nat) :
    (r.modify fun _ => (r.s.readRequests a n k j).2).Tame w s := by
  have he := r.s.readRequests_eq a n k j
  refine h.modify (.memory w he) ?_
  obtain ⟨m, ts, hm, -⟩ := he
  rw [hm]

theorem Run.Tame.writeRequests (h : r.Tame w s) (a : Word) (n k : Nat) (bs : List Byte) :
    (r.modify fun t => t.writeRequests a n k bs).Tame w s := by
  have he := r.s.writeRequests_eq a n k bs
  refine h.modify (.memory w he) ?_
  obtain ⟨m, ts, hm, -⟩ := he
  rw [hm]

/-- A run that uses up free values where `p` fails. -/
theorem Run.Tame.draw (h : r.Tame w s) (p : Prop) [Decidable p] (k : Nat) :
    (if p then r else r.modify fun t => { t with draws := t.draws + k }).Tame w s := by
  split
  · exact h
  · exact h.modify (.registers w _ _ _ _ _ fun _ => rfl) rfl

theorem Run.Tame.turn (h : r.Tame w s) : (r.modify State.turn).Tame w s :=
  h.modify (.turn w r.s) (State.turn_depth _)

theorem Run.Tame.turnIf (h : r.Tame w s) (p : Prop) [Decidable p] :
    (if p then r else r.modify State.turn).Tame w s := by
  split
  · exact h
  · exact h.turn

/-- A call that saves the current set has done its work. -/
theorem Run.Tame.callAction (h : r.Tame w s) (hp : r.post = none) {target base : Word} {rt : BitVec 3}
    (ha : s.Invariant → target.extractLsb' 0 2 = 0) (hr : r.callAction target rt base = .ok r') : r'.Done w s := by
  rcases r.callAction_cases target rt base with ⟨he, -⟩ | ⟨-, noted, he⟩
  · rw [he] at hr; cases hr
  · rw [he] at hr
    cases hr
    exact ⟨(h.state.trans (.newFrame w _ _ _ _ _)).jump ha, h.late, .inl hp⟩

/-- A run that only has to keep the invariant, in supervisor mode, and may write the condition code. -/
theorem Run.Done.of_supervisor (h : s.em = true) (hp : r.post = none)
    (hi : s.Invariant → r.s.Invariant) : r.Done true s :=
  ⟨.of_supervisor true h hi nofun, fun hs => (by rw [h] at hs; cases hs), .inl hp⟩

end

/-! The end of an instruction. -/

section
variable {w : Bool} {s t : State} {r : Run} {len : Word} {body : Run → Except Stop Run}
  {us : List Use}

theorem Run.signalled_depth (r : Run) (s : State) : (r.signalled s).depth = r.s.depth := by
  unfold Run.signalled
  split <;> simp

theorem Run.Done.signalled (h : r.Done w s) : s.Tame w (r.signalled s) := by
  have hsig := h.state.trans (.signal w r.s r.events (s.effectiveTe r.s.te) s.ip)
  unfold Run.signalled
  split
  · exact hsig
  · next v hv => exact hsig.setPctl w fun hs => by rw [h.late hs] at hv; cases hv

/-- The end of an instruction that has done its work (R531 steps 11 and 12). -/
theorem Run.Done.finish (h : r.Done w s) (hf : r.finish s = .next t) : s.Ends w t := by
  unfold Run.finish at hf
  split at hf
  · cases hf; exact .inl h.signalled
  · next c hc =>
    have hd : r.s.depth = s.depth := h.post.resolve_left (by rw [hc]; nofun)
    exact .inr (takeFault_enters h.signalled ((r.signalled_depth s).trans hd) hf)

/-- An instruction faults before it executes, or its body comes to an end. -/
theorem runInstr_cases (w : Bool) (h : runInstr s len body = .next t) :
    s.Enters w t 1 ∨ ∃ r, body (s.begin len) = .ok r ∧ r.finish s = .next t := by
  unfold runInstr at h
  split at h
  · next r hr => exact .inr ⟨r, hr, h⟩
  · exact .inl (takeFault_enters (.refl w s) rfl h)
  · cases h
  · cases h

theorem runInstr_ends (h : runInstr s len body = .next t)
    (hb : ∀ r, body (s.begin len) = .ok r → r.Done w s) : s.Ends w t := by
  rcases runInstr_cases w h with h | ⟨r, hr, hf⟩
  · exact .inr h
  · exact (hb r hr).finish hf

theorem runChecked_cases (w : Bool) (h : runChecked s len us body = .next t) :
    s.Enters w t 1 ∨ s.canUseAll us = true ∧ runInstr s len body = .next t := by
  rcases runChecked_next h with ⟨c, -, h⟩ | ⟨hn, h⟩
  · exact .inl (takeEarlyFault_enters h)
  · exact .inr ⟨(s.operandFault_eq_none us).1 hn, h⟩

theorem runChecked_ends (h : runChecked s len us body = .next t)
    (hb : s.canUseAll us = true → ∀ r, body (s.begin len) = .ok r → r.Done w s) : s.Ends w t := by
  rcases runChecked_cases w h with h | ⟨hu, h⟩
  · exact .inr h
  · exact runInstr_ends h (hb hu)

/-- A destination that can be used is a special function register only in supervisor mode. -/
theorem State.mayWrite_of_canUse {u : Use} (h : s.canUse u = true) : s.MayWrite u.operand := by
  intro n hn
  rw [State.canUse, hn] at h
  simp only [Bool.and_eq_true] at h
  exact h.1.1

/-- The destination is the last operand. -/
theorem State.mayWrite_last (hu : s.canUseAll us = true) {o : Operand} {wd al : Nat}
    (hl : us.getLast? = some ⟨o, wd, al⟩) : s.MayWrite o :=
  State.mayWrite_of_canUse (List.all_eq_true.1 hu _ (List.mem_of_getLast? hl))

theorem State.mayWrite_reg (n : RegNum) : s.MayWrite (.reg n) := nofun

theorem of_ite_error {p : Prop} [Decidable p] {ε α : Type} {e : ε} {x : Except ε α} {b : α}
    (h : (if p then Except.error e else x) = .ok b) : ¬p ∧ x = .ok b := by
  split at h
  · cases h
  · next hp => exact ⟨hp, h⟩

theorem ok_of_ite_error {p : Prop} [Decidable p] {ε α : Type} {e : ε} {a b : α}
    (h : (if p then Except.error e else .ok a) = .ok b) : ¬p ∧ a = b :=
  (of_ite_error h).imp_right Except.ok.inj

theorem bind_eq_ok {α β ε : Type} {x : Except ε α} {f : α → Except ε β} {b : β}
    (h : (x >>= f) = .ok b) : ∃ a, x = .ok a ∧ f a = .ok b := by
  cases x with
  | error e => cases h
  | ok a => exact ⟨a, rfl, h⟩

end

/-! The shapes that write no condition code. -/

section
variable {w : Bool} {s t : State} {src1 src2 : Src} {dst : Dst} {upd : Upd} {n : RegNum} {efa : Efa}

/-- The start of an instruction of four bytes. -/
theorem State.begin_four (w : Bool) (s : State) : (s.begin 4).Tame w s := s.begin_tame w (by decide)

theorem State.begin_mem (w : Bool) (s : State) (efa : Efa) : (s.begin efa.len).Tame w s :=
  s.begin_tame w (Efa.len_aligned efa)

theorem unaryForm_ends {f : Word → Word} (h : unaryForm s src1 dst f = .next t) : s.Ends w t :=
  runChecked_ends h fun hu r hr => by
    cases hr
    exact ((s.begin_four w).put (State.mayWrite_last hu rfl) 0 _).done

theorem binaryForm_ends {f : Word → Word → Word} (h : binaryForm s src1 src2 dst f = .next t) :
    s.Ends w t :=
  runChecked_ends h fun hu r hr => by
    cases hr
    exact ((s.begin_four w).put (State.mayWrite_last hu rfl) 0 _).done

theorem integerForm_ends {f : Word → Word → Word × Bool}
    (h : integerForm s src1 src2 dst f = .next t) : s.Ends w t :=
  runChecked_ends h fun hu r hr => by
    cases hr
    exact (((s.begin_four w).put (State.mayWrite_last hu rfl) 0 _).overflow _).done

theorem divideForm_ends {f : Word → Word → Word × Bool}
    (h : divideForm s src1 src2 dst f = .next t) : s.Ends w t :=
  runChecked_ends h fun hu r hr => by
    split at hr <;> cases hr
    exact (((s.begin_four w).put (State.mayWrite_last hu rfl) 0 _).overflow _).done

theorem updateForm_ends {f : Word → Word → Word → Word}
    (h : updateForm s src1 src2 upd f = .next t) : s.Ends w t :=
  runChecked_ends h fun hu r hr => by
    cases hr
    exact ((s.begin_four w).put (State.mayWrite_last hu rfl) 0 _).done

theorem moveForm_ends {wd al : Nat} (h : moveForm s src1 dst wd al = .next t) : s.Ends w t :=
  runChecked_ends h fun hu r hr => by
    cases hr
    exact ((s.begin_four w).putAll (State.mayWrite_last hu rfl) 0 _).done

theorem testForm_ends {mask : BitVec 3} (h : testForm s upd mask = .next t) : s.Ends w t :=
  runChecked_ends h fun hu r hr => by
    cases hr
    exact ((s.begin_four w).put (State.mayWrite_last hu rfl) 0 _).done

theorem execEmul_ends (h : execEmul src1 src2 dst s = .next t) : s.Ends w t :=
  runChecked_ends h fun hu r hr => by
    cases hr
    exact ((s.begin_four w).putAll (State.mayWrite_last hu rfl) 0 _).done

theorem execEdiv_ends (h : execEdiv src1 src2 dst s = .next t) : s.Ends w t :=
  runChecked_ends h fun hu r hr => by
    obtain ⟨-, rfl⟩ := ok_of_ite_error hr
    exact (((s.begin_four w).putAll (State.mayWrite_last hu rfl) 0 _).draw _ 2).done

theorem execEshro_ends (h : execEshro src1 src2 dst s = .next t) : s.Ends w t :=
  runChecked_ends h fun hu r hr => by
    cases hr
    exact ((s.begin_four w).put (State.mayWrite_last hu rfl) 0 _).done

theorem execLda_ends (h : execLda efa n s = .next t) : s.Ends w t :=
  runChecked_ends h fun _ r hr => by
    cases hr
    exact ((s.begin_mem w efa).put (State.mayWrite_reg n) 0 _).done

theorem loadForm_ends {k : Nat} {v : Bool → List Byte → Word} (h : loadForm s efa n k v = .next t) :
    s.Ends w t :=
  runChecked_ends h fun _ r hr => by
    obtain ⟨r1, hr1, hr⟩ := bind_eq_ok hr
    cases hr
    exact ((((s.begin_mem w efa).access hr1).readRequests _ _ _ _).put (State.mayWrite_reg n) 0 _).done

theorem loadGroupForm_ends {wd al : Nat} (h : loadGroupForm s efa n wd al = .next t) : s.Ends w t :=
  runChecked_ends h fun _ r hr => by
    obtain ⟨r1, hr1, hr⟩ := bind_eq_ok hr
    cases hr
    exact ((((s.begin_mem w efa).access hr1).readRequests _ _ _ _).putAll (State.mayWrite_reg n) 0 _).done

theorem storeForm_ends {k : Nat} {bytes : Bool → Word → List Byte}
    (h : storeForm s n efa k bytes = .next t) : s.Ends w t :=
  runChecked_ends h fun _ r hr => by
    obtain ⟨r1, hr1, hr⟩ := bind_eq_ok hr
    cases hr
    exact (((s.begin_mem w efa).access hr1).writeRequests _ _ _ _).done

theorem storeIntegerForm_ends {k : Nat} {bytes : Bool → Word → List Byte} {fits : Word → Bool}
    (h : storeIntegerForm s n efa k bytes fits = .next t) : s.Ends w t :=
  runChecked_ends h fun _ r hr => by
    obtain ⟨r1, hr1, hr⟩ := bind_eq_ok hr
    have hstored := ((s.begin_mem w efa).access hr1).writeRequests (s.address s.ip efa) k 0
      (bytes (s.bigEndian (s.address s.ip efa)) (s.getReg n))
    cases hr
    exact ((hstored.overflow _).turnIf _).done

theorem storeGroupForm_ends {wd al : Nat} (h : storeGroupForm s n efa wd al = .next t) : s.Ends w t :=
  runChecked_ends h fun _ r hr => by
    obtain ⟨r1, hr1, hr⟩ := bind_eq_ok hr
    cases hr
    exact (((s.begin_mem w efa).access hr1).writeRequests _ _ _ _).done

/-- The read and the write of an atomic instruction (`46_atomic_procmgmt.md` R450, R451). -/
theorem Run.Tame.atomic {r r' : Run} (h : r.Tame w s) {a : Word} {f : Word → Word} {o : Operand}
    (ho : s.MayWrite o) (hr : r.atomic a f o = .ok r') : r'.Tame w s := by
  obtain ⟨r1, hr1, hr⟩ := bind_eq_ok hr
  cases hr
  refine (((h.access hr1).note _).modify
    ((State.Tame.lockedTurn w _ _ _).trans (.writeWord w _ _ _)) ?_).put ho 0 _
  simp

theorem execAtadd_ends (h : execAtadd src1 src2 dst s = .next t) : s.Ends w t :=
  runChecked_ends h fun hu _ hr => ((s.begin_four w).atomic (State.mayWrite_last hu rfl) hr).done

theorem execAtmod_ends (h : execAtmod src1 src2 upd s = .next t) : s.Ends w t :=
  runChecked_ends h fun hu _ hr => ((s.begin_four w).atomic (State.mayWrite_last hu rfl) hr).done

/-- `modtc` changes TC and may open a window of four instructions. -/
theorem execModtc_ends (h : execModtc src1 src2 dst s = .next t) : s.Ends w t :=
  runChecked_ends h fun hu r hr => by
    cases hr
    have hput := (s.begin_four w).put (State.mayWrite_last hu rfl) 0 s.tc
    refine Run.Tame.done ⟨hput.state.trans ⟨fun hs => ?_, fun hs => ⟨hs, ?_⟩, fun _ => rfl⟩, hput.late,
      hput.depth⟩
    · refine ⟨hs.mem, hs.image, hs.ip, hs.tables, hs.size, hs.rcache, hs.locked, ?_, hs.boot⟩
      unfold Run.installTc
      dsimp only
      split
      · exact hs.windows
      · exact ⟨Nat.le_refl 4, hs.windows.2⟩
    · exact ⟨rfl, rfl, rfl, rfl, rfl, rfl, rfl, rfl, rfl, rfl⟩

theorem execMark_ends (h : execMark s = .next t) : s.Ends w t :=
  runInstr_ends h fun r hr => by
    injection hr with hr
    subst hr
    split
    · exact ((s.begin_four w).note _).done
    · exact (s.begin_four w).done

theorem execFmark_ends (h : execFmark s = .next t) : s.Ends w t :=
  runInstr_ends h fun r hr => by
    injection hr with hr
    subst hr
    split
    · exact ((s.begin_four w).note _).done
    · exact (s.begin_four w).done

theorem execSyncf_ends (h : execSyncf s = .next t) : s.Ends w t :=
  runInstr_ends h fun r hr => by
    cases hr
    exact (s.begin_four w).done

theorem conditionFaultForm_ends {mask : BitVec 3} (h : conditionFaultForm s mask = .next t) :
    s.Ends w t :=
  runInstr_ends h fun r hr => by
    have hb := s.begin_four w
    injection hr with hr
    subst hr
    split
    · exact Run.Tame.done ⟨hb.state, hb.late, hb.depth⟩
    · exact hb.done

theorem conditionBranchForm_ends {mask : BitVec 3} {d : BitVec 22}
    (h : conditionBranchForm s mask d = .next t) : s.Ends w t :=
  runInstr_ends h fun r hr => by
    cases hr
    exact ((s.begin_four w).branchIf _ fun hs => aligned_add hs.ip (ctrlOffset_aligned d)).done

theorem execB_ends {d : BitVec 22} {p : Bool} (h : execB d p s = .next t) : s.Ends w t :=
  runInstr_ends h fun r hr => by
    cases hr
    exact ((s.begin_four w).branchIf true fun hs => aligned_add hs.ip (ctrlOffset_aligned d)).done

theorem execBx_ends (h : execBx efa s = .next t) : s.Ends w t :=
  runInstr_ends h fun r hr => by
    cases hr
    exact ((s.begin_mem w efa).branchIf true fun _ => alignTarget_aligned _).done

theorem execBal_ends {d : BitVec 22} {p : Bool} (h : execBal d p s = .next t) : s.Ends w t :=
  runInstr_ends h fun r hr => by
    cases hr
    exact (((s.begin_four w).put (State.mayWrite_reg 30) 0 _).link.jump fun hs =>
      aligned_add hs.ip (ctrlOffset_aligned d)).done

theorem execBalx_ends (h : execBalx efa n s = .next t) : s.Ends w t :=
  runChecked_ends h fun _ r hr => by
    cases hr
    exact (((s.begin_mem w efa).put (State.mayWrite_reg n) 0 _).link.jump fun _ =>
      alignTarget_aligned _).done

end

/-! The shapes that write the condition code. -/

section
variable {s t : State} {src1 src2 : Src} {dst : Dst} {c1 : CSrc1} {c2 : CSrc2} {d : BitVec 11}

theorem unaryCodeForm_ends {f : Word → Word × BitVec 3} (h : unaryCodeForm s src1 dst f = .next t) :
    s.Ends true t :=
  runChecked_ends h fun hu r hr => by
    cases hr
    exact (((s.begin_four true).put (State.mayWrite_last hu rfl) 0 _).setCc _).done

theorem carryForm_ends {f : Word → Word → Bool → Word × Bool} {g : Word → Word → Bool → Bool}
    (h : carryForm s src1 src2 dst f g = .next t) : s.Ends true t :=
  runChecked_ends h fun hu r hr => by
    cases hr
    exact (((s.begin_four true).put (State.mayWrite_last hu rfl) 0 _).setCc _).done

theorem codeForm_ends {f : Word → Word → BitVec 3} (h : codeForm s src1 src2 f = .next t) :
    s.Ends true t :=
  runChecked_ends h fun hu r hr => by
    cases hr
    exact ((s.begin_four true).setCc _).done

theorem compareStepForm_ends {f : Word → Word → BitVec 3} {g : Word → Word}
    (h : compareStepForm s src1 src2 dst f g = .next t) : s.Ends true t :=
  runChecked_ends h fun hu r hr => by
    cases hr
    exact (((s.begin_four true).put (State.mayWrite_last hu rfl) 0 _).setCc _).done

theorem compareBranchForm_ends {f : Word → Word → BitVec 3} {mask : BitVec 3}
    (h : compareBranchForm s c1 c2 d f mask = .next t) : s.Ends true t :=
  runChecked_ends h fun hu r hr => by
    cases hr
    exact (((s.begin_four true).setCc _).branchIf _ fun hs =>
      aligned_add hs.ip (cobrOffset_aligned d)).done

theorem bitBranchForm_ends {want : Bool} (h : bitBranchForm s c1 c2 d want = .next t) :
    s.Ends true t :=
  runChecked_ends h fun hu r hr => by
    cases hr
    exact (((s.begin_four true).setCc _).branchIf _ fun hs =>
      aligned_add hs.ip (cobrOffset_aligned d)).done

theorem execModac_ends (h : execModac src1 src2 dst s = .next t) : s.Ends true t :=
  runChecked_ends h fun hu r hr => by
    cases hr
    exact (((s.begin_four true).put (State.mayWrite_last hu rfl) 0 _).modify
      (.registers true _ _ _ _ _ nofun) rfl).done

end

end Sys2Proof.Machine
end

section
/-! What every instruction keeps, continued: calls, returns, the process controls, the DMA and `sysctl`;
then all instructions, and the statements O58, O59 and O60. -/

namespace Sys2Proof.Machine

section
variable {w : Bool} {s t u : State} {r r' : Run}

/-! Calls. -/

theorem execCall_ends {d : BitVec 22} {p : Bool} (h : execCall d p s = .next t) : s.Ends w t :=
  runInstr_ends h fun _ hr =>
    (s.begin_four w).callAction rfl (fun hs => aligned_add hs.ip (ctrlOffset_aligned d)) hr

theorem execCallx_ends {efa : Efa} (h : execCallx efa s = .next t) : s.Ends w t :=
  runInstr_ends h fun _ hr =>
    (s.begin_mem w efa).callAction rfl (fun _ => alignTarget_aligned _) hr

/-- Entering a supervisor procedure from user mode. -/
theorem State.supervisorFrame_enters (w : Bool) (s : State) (v rip nfp : Word) (p : Bool) (rt : BitVec 3)
    {a : Word} (ha : a.extractLsb' 0 2 = 0) :
    s.Enters w (((s.setPctl v).newFrame rip nfp p rt).goTo a) rt := by
  have hinv (hs : s.Invariant) : (((s.setPctl v).newFrame rip nfp p rt).goTo a).Invariant :=
    ((State.Tame.newFrame w _ _ _ _ _).trans (State.Tame.goTo w _ fun _ => ha)).inv (hs.setPctl v)
  obtain ⟨m, rc, ts, hn, -⟩ := (s.setPctl v).newFrame_eq rip nfp p rt
  rw [hn] at hinv ⊢
  exact ⟨hinv, fun _ => ⟨rfl, rfl, rfl, rfl, rfl, rfl, rfl, rfl, rfl, rfl⟩, fun _ => rfl, rfl,
    pfp_kind _ rt p⟩

theorem State.Enters.signal {kind : BitVec 3} (h : s.Enters w t kind) (f : Word) (te : Bool) (a : Word) :
    s.Enters w (t.signal f te a) kind := by
  have hinv := (State.Tame.signal w t f te a).inv
  obtain ⟨tc, pc, ta, he, -⟩ := t.signal_eq f te a
  rw [he] at hinv ⊢
  exact ⟨fun hs => hinv (h.inv hs),
    fun hs => (h.user hs).trans ⟨rfl, rfl, rfl, rfl, rfl, rfl, rfl, rfl, rfl, rfl⟩, h.cc, h.depth, h.kind⟩

/-- A system call has done its work, or it has entered a supervisor procedure from user mode. -/
def Run.Called (w : Bool) (s : State) (r : Run) : Prop :=
  r.Done w s ∨ ∃ kind, (kind = 2 ∨ kind = 3) ∧ s.Enters w r.s kind ∧ r.post = none ∧ r.late = none

theorem Run.Tame.supervisorCall (h : r.Tame w s) (hp : r.post = none) (hl : r.late = none) {target : Word}
    (ha : target.extractLsb' 0 2 = 0) (hr : r.supervisorCall target = .ok r') : r'.Called w s := by
  unfold Run.supervisorCall at hr
  split at hr
  · exact .inl (h.callAction hp (fun _ => ha) hr)
  · rcases Run.callAction_cases _ _ _ _ with ⟨he, -⟩ | ⟨-, noted, he⟩
    · rw [he] at hr; cases hr
    · rw [he] at hr
      cases hr
      have hturn := h.turn
      refine .inr ⟨_, ?_, hturn.state.enters hturn.depth (State.supervisorFrame_enters w _ _ _ _ _ _ ha),
        hp, hl⟩
      split
      · exact .inr rfl
      · exact .inl rfl

theorem Run.Tame.callSystem (h : r.Tame w s) (hp : r.post = none) (hl : r.late = none) {n : Word}
    (hr : r.callSystem n = .ok r') : r'.Called w s := by
  unfold Run.callSystem at hr
  dsimp only at hr
  split at hr
  · exact ((h.note _).note _).supervisorCall hp hl (alignTarget_aligned _) hr
  · exact .inl ((h.note _).callAction hp (fun _ => alignTarget_aligned _) hr)

theorem Run.Called.finish (h : r.Called w s) (hf : r.finish s = .next t) :
    s.Ends w t ∨ s.Enters w t 2 ∨ s.Enters w t 3 := by
  rcases h with h | ⟨kind, hk, he, hp, hl⟩
  · exact .inl (h.finish hf)
  · have ht : s.Enters w t kind := by
      simp only [Run.finish, hp, Run.signalled, hl] at hf
      cases hf
      exact he.signal _ _ _
    rcases hk with rfl | rfl
    · exact .inr (.inl ht)
    · exact .inr (.inr ht)

theorem execCalls_ends {src : Src} (h : execCalls src s = .next t) :
    s.Ends w t ∨ s.Enters w t 2 ∨ s.Enters w t 3 := by
  rcases runChecked_cases w h with h | ⟨-, h⟩
  · exact .inl (.inr h)
  · rcases runInstr_cases w h with h | ⟨r, hr, hf⟩
    · exact .inl (.inr h)
    · obtain ⟨-, hr⟩ := of_ite_error hr
      exact ((s.begin_four w).callSystem rfl rfl hr).finish hf

/-! Returns. -/

theorem Run.Done.note (h : r.Done w s) (flags : Word) : (r.note flags).Done w s :=
  ⟨h.state, h.late, h.post⟩

/-- The state of the caller's frame. -/
theorem State.Tame.leave (w : Bool) (s : State) (frame : Word) :
    s.Tame w { (s.setReg 31 frame).restoreLocals frame with
      depth := ((s.setReg 31 frame).restoreLocals frame).depth - 1 } :=
  ((State.Tame.setReg w s 31 frame).trans (.restoreLocals w _ frame)).trans (.depth w _ _)

/-- A return to the frame that called has done its work. -/
theorem Run.Tame.leaveFrame (h : r.Tame w s) (hp : r.post = none) : r.leaveFrame.Done w s := by
  have hr1 : (if r.s.rcache.isEmpty then r.implicit (r.s.pfp &&& 0xFFFFFFF0) 64 else r).Tame w s ∧
      (if r.s.rcache.isEmpty then r.implicit (r.s.pfp &&& 0xFFFFFFF0) 64 else r).post = none := by
    split
    · exact ⟨h.note _, hp⟩
    · exact ⟨h, hp⟩
  unfold Run.leaveFrame
  dsimp only
  generalize (if r.s.rcache.isEmpty then r.implicit (r.s.pfp &&& 0xFFFFFFF0) 64 else r) = r1 at hr1
  obtain ⟨h1, hp1⟩ := hr1
  have h2 := h1.state.trans (State.Tame.leave w r1.s (r.s.pfp &&& 0xFFFFFFF0))
  exact ⟨h2.jump fun _ => alignTarget_aligned _, h1.late, .inl hp1⟩

/-- AC and PC are restored; PC in supervisor mode only. -/
theorem Run.Tame.restoreControls (h : r.Tame true s) : r.restoreControls.Tame true s := by
  have h1 := (h.note (r.s.dataBreak r.modes (r.s.fp - 12) 4 .implicit)).modify
    (f := fun t => { t with ac := r.s.readWord (r.s.fp - 12) }) (.registers true _ _ _ _ _ nofun) rfl
  unfold Run.restoreControls
  dsimp only
  split
  · next he =>
    refine ⟨(h1.note _).turn.state, fun hs => ?_, (h1.note _).turn.depth⟩
    rw [(h.state.user hs).1] at he
    cases he
  · exact h1

theorem State.Tame.endNmi (s : State) : s.Tame w s.endNmi := by
  unfold State.endNmi
  split
  · exact ⟨fun hs => ⟨hs.mem, hs.image, hs.ip, hs.tables, hs.size, hs.rcache, hs.locked, hs.windows,
      hs.boot⟩, fun hs => ⟨hs, ⟨rfl, rfl, rfl, rfl, rfl, rfl, rfl, rfl, rfl, rfl⟩⟩, fun _ => rfl⟩
  · exact .refl w s

/-- The PC of a return from a supervisor call is one of user mode. -/
theorem userPctl_em (v : Word) (b : Bool) : (putBit (putBit v 1 false) 0 b).getLsbD 1 = false := by
  rw [putBit_em (by decide)]
  simp [putBit]

theorem Run.Tame.returnAction (h : r.Tame true s) (hp : r.post = none)
    (hr : r.returnAction = .ok r') : r'.Done true s := by
  unfold Run.returnAction at hr
  have huser (b : Bool) := h.modify
    (f := fun t => t.setPctl (putBit (putBit t.pctl 1 false) 0 b))
    ((State.Tame.refl true r.s).setPctl true fun _ => userPctl_em _ b) rfl
  split at hr
  · cases hr; exact h.leaveFrame hp
  · cases hr
    exact h.restoreControls.leaveFrame (by unfold Run.restoreControls; dsimp only; split <;> exact hp)
  · cases hr; exact ((huser false).leaveFrame hp).note _
  · cases hr; exact ((huser true).leaveFrame hp).note _
  · cases hr
    refine (h.restoreControls.modify (.endNmi _) ?_).leaveFrame ?_
    · unfold State.endNmi; split <;> rfl
    · unfold Run.restoreControls; dsimp only; split <;> exact hp
  · cases hr

/-- The trace fault (`62_tracing.md` R575). -/
theorem State.traceFault_enters {a : Word} (h : s.traceFault a = .ok t) : s.Enters w t 1 := by
  have ht : s.Tame w { s with tc := s.tc &&& 0xFF01FFFF, pctl := putBit s.pctl 10 false } :=
    ⟨fun hs => ⟨hs.mem, hs.image, hs.ip, hs.tables, hs.size, hs.rcache, hs.locked, hs.windows,
      hs.boot⟩, fun hs => ⟨(putBit_em (by decide) false).trans hs,
      ⟨rfl, rfl, rfl, rfl, rfl, rfl, rfl, rfl, rfl, rfl⟩⟩, fun _ => rfl⟩
  exact ht.enters rfl (State.enterFault_enters w h)

theorem faultOutcome_next {e : Except Refusal State} (h : faultOutcome e = .next t) : e = .ok t := by
  cases e with
  | error r => cases h
  | ok u => cases h; rfl

theorem State.runReturn_ends (h : s.runReturn = .next t) : s.Ends true t := by
  have hd (d : Nat) : s.Tame true { s with draws := d } :=
    .registers true s.locals s.globals s.tc d s.turns fun _ => rfl
  unfold State.runReturn at h
  split at h
  · exact .inr (takeFault_enters (hd s.ageWindows.draws) rfl h)
  · exact runInstr_ends h fun _ hr => (s.begin_four true).returnAction rfl hr

theorem execRet_ends (h : execRet s = .next t) : s.Ends true t := by
  unfold execRet at h
  split at h
  · split at h
    · have hreg := (State.Tame.setReg true s 0 (putBit s.pfp 3 false)).trans
        (.registers true (s.setReg 0 (putBit s.pfp 3 false)).locals
          (s.setReg 0 (putBit s.pfp 3 false)).globals (s.tc ||| evPrereturn) (s.draws + 3) [] fun _ => rfl)
      exact .inr (hreg.enters (State.setReg_depth ..) (State.traceFault_enters (faultOutcome_next h)))
    · have hreg := State.Tame.registers true (s := s) s.locals s.globals (s.tc ||| evPrereturn) s.draws
        s.turns fun _ => rfl
      exact (State.runReturn_ends h).imp hreg.trans (hreg.enters rfl)
  · exact State.runReturn_ends h

/-! `flushreg`. -/

theorem Run.Tame.noteFrames (h : r.Tame w s) (cs : List SavedSet) : (r.noteFrames cs).Tame w s := by
  induction cs generalizing r with
  | nil => exact h
  | cons c cs ih => exact ih (h.note _)

theorem State.Tame.dropSets (s : State) : s.Tame w { s with rcache := [] } :=
  ⟨fun hs => ⟨hs.mem, hs.image, hs.ip, hs.tables, hs.size, Nat.zero_le _, hs.locked, hs.windows,
    hs.boot⟩, fun hs => ⟨hs, ⟨rfl, rfl, rfl, rfl, rfl, rfl, rfl, rfl, rfl, rfl⟩⟩, fun _ => rfl⟩

theorem State.flushSets_depth (cs : List SavedSet) (s : State) : (s.flushSets cs).depth = s.depth := by
  induction cs generalizing s with
  | nil => rfl
  | cons c cs ih =>
    obtain ⟨m, ts, h, -⟩ := s.writeQuads_eq c.frame c.words.toList
    rw [State.flushSets, ih, h]

theorem execFlushreg_ends (h : execFlushreg s = .next t) : s.Ends w t :=
  runInstr_ends h fun r hr => by
    obtain ⟨-, rfl⟩ := ok_of_ite_error hr
    exact (((s.begin_four w).noteFrames _).modify
      ((State.Tame.flushSets w _ _).trans (.dropSets _)) (State.flushSets_depth _ _)).done

/-! What only supervisor mode does. -/

/-- A change that only supervisor mode makes. -/
theorem Run.Tame.supervise (h : r.Tame w s) (hem : s.em = true) {f : State → State}
    (hi : r.s.Invariant → (f r.s).Invariant) (hac : (f r.s).ac = r.s.ac)
    (hd : (f r.s).depth = r.s.depth) : (r.modify f).Tame w s where
  state := .of_supervisor w hem (fun hs => hi (h.state.inv hs)) fun hw =>
    (congrArg (·.extractLsb' 0 3) hac).trans (h.state.cc hw)
  late hs := by rw [hem] at hs; cases hs
  depth := hd.trans h.depth

theorem State.Invariant.checkPending (hs : s.Invariant) : s.checkPending.Invariant :=
  ⟨hs.mem, hs.image, hs.ip, hs.tables, hs.size, hs.rcache, hs.locked, hs.windows, hs.boot⟩

theorem Run.Tame.refreshIf (h : r.Tame w s) (hem : s.em = true) (p : Prop) [Decidable p] (a : Word) :
    (if p then (r.implicit a 4).modify State.checkPending else r).Tame w s := by
  split
  · exact (h.note _).supervise hem State.Invariant.checkPending rfl rfl
  · exact h

/-- Installing PC opens a window of at most four instructions. -/
theorem Run.Tame.installPc (h : r.Tame w s) (hem : s.em = true) (v : Word) :
    (r.installPc s v).Tame w s := by
  have h1 : (r.modify fun t =>
      { t with
        pctl := v
        trace :=
          if v.getLsbD 0 = s.te then t.trace
          else { t.trace with teDelay := { left := 4, old := s.te } } }).Tame w s := by
    refine h.supervise hem (fun hs => ⟨hs.mem, hs.image, hs.ip, hs.tables, hs.size, hs.rcache, hs.locked,
      ?_, hs.boot⟩) rfl rfl
    dsimp only
    split
    · exact hs.windows
    · exact ⟨hs.windows.1, Nat.le_refl 4⟩
  exact h1.refreshIf hem _ _

theorem execModpc_ends {src1 src2 : Src} {upd : Upd} (h : execModpc src1 src2 upd s = .next t) :
    s.Ends w t :=
  runChecked_ends h fun hu r hr => by
    have hput := (s.begin_four w).put (State.mayWrite_last hu rfl) 0 s.pctl
    dsimp only at hr
    split at hr
    · cases hr
      exact hput.done
    · obtain ⟨hem, hr⟩ := of_ite_error hr
      obtain ⟨-, rfl⟩ := ok_of_ite_error hr
      exact (hput.installPc (Bool.eq_true_of_not_eq_false hem) _).done

theorem State.Invariant.startChannel (hs : s.Invariant) (c : Fin 4) (v : Word) (ws : List Word) :
    (s.startChannel c v ws).Invariant := by
  have h1 := (State.Tame.writeWords true s (dmaBlock c) ws).inv hs
  exact ⟨h1.mem, h1.image, h1.ip, h1.tables, h1.size, h1.rcache, h1.locked, h1.windows, h1.boot⟩

theorem State.startChannel_ac (s : State) (c : Fin 4) (v : Word) (ws : List Word) :
    (s.startChannel c v ws).ac = s.ac := State.writeWords_ac ..

theorem State.startChannel_depth (s : State) (c : Fin 4) (v : Word) (ws : List Word) :
    (s.startChannel c v ws).depth = s.depth := State.writeWords_depth ..

theorem execSdma_ends {src1 src2 : Src} {src3 : Src3} (h : execSdma src1 src2 src3 s = .next t) :
    s.Ends w t := by
  unfold execSdma at h
  split at h
  · exact .inr (takeEarlyFault_enters h)
  · next hem =>
    refine runChecked_ends h fun _ r hr => ?_
    obtain ⟨-, rfl⟩ := ok_of_ite_error hr
    exact ((s.begin_four w).supervise (Bool.eq_true_of_not_eq_false hem)
      (fun hs => hs.startChannel _ _ _) (State.startChannel_ac ..)
      (State.startChannel_depth ..)).done

theorem State.Tame.writeStatus (w : Bool) (s : State) (c : Fin 4) : s.Tame w (s.writeStatus c) :=
  .writeWords w s _ _

theorem execUdma_ends (h : execUdma s = .next t) : s.Ends w t := by
  unfold execUdma at h
  split at h
  · exact .inr (takeEarlyFault_enters h)
  · refine runInstr_ends h fun r hr => ?_
    obtain rfl := Except.ok.inj hr
    refine Run.Tame.done ((s.begin_four w).modify ?_ ?_)
    · exact (((State.Tame.writeStatus w _ 0).trans (.writeStatus w _ 1)).trans
        (.writeStatus w _ 2)).trans (.writeStatus w _ 3)
    · simp [State.writeStatus]

/-! `sysctl`. -/

theorem State.Tame.writeByte (w : Bool) (s : State) (a : Word) (b : Byte) : s.Tame w (s.writeByte a b) :=
  .memory w ⟨_, s.turns, rfl, fun hs => State.writeByte_wf hs a b⟩

theorem State.Tame.postInTable (w : Bool) (s : State) (v : BitVec 8) : s.Tame w (s.postInTable v) :=
  ((((State.Tame.lockedTurn w s _ _).trans (.lockedTurn w _ _ _)).trans (.writeByte w _ _ _)).trans
    (.lockedTurn w _ _ _)).trans (.writeWord w _ _ _)

theorem Run.requestInterrupt_keeps (r : Run) (v : BitVec 8) :
    (r.requestInterrupt v).post = r.post ∧ (r.s.Invariant → (r.requestInterrupt v).s.Invariant) := by
  unfold Run.requestInterrupt
  dsimp only
  split
  · exact ⟨rfl, State.Invariant.checkPending⟩
  · exact ⟨rfl, fun hs => (((State.Tame.postInTable true _ v).trans (.turn true _)).inv hs).checkPending⟩

theorem State.Invariant.invalidateCache (hs : s.Invariant) : s.invalidateCache.Invariant :=
  ⟨hs.mem, hs.mem, hs.ip, hs.tables, hs.size, hs.rcache, rfl, hs.windows, hs.boot⟩

theorem State.Invariant.setCacheMode (hs : s.Invariant) (m : ICacheMode) {l : Option LockedBlock}
    (hl : ∀ b, l = some b → b.ok = true) : (s.setCacheMode m l).Invariant := by
  refine ⟨hs.mem, hs.image, hs.ip, hs.tables, hs.size, hs.rcache, ?_, hs.windows, hs.boot⟩
  cases l with
  | none => rfl
  | some b => exact hl b rfl

theorem Run.loadAndLock_keeps {m : ICacheMode} {a : Word} {n : Nat} (hn : n = 64 ∨ n = 32)
    (hr : r.loadAndLock m a n = .ok r') : r'.post = r.post ∧ (r.s.Invariant → r'.s.Invariant) := by
  unfold Run.loadAndLock at hr
  split at hr
  · next ha =>
    cases hr
    refine ⟨rfl, fun hs => ((State.Tame.memory true (r.s.readQuads_eq a n)).inv hs).setCacheMode m ?_⟩
    rintro b ⟨⟩
    have hlen := r.s.readQuads_length a n
    rcases hn with rfl | rfl <;> simp [LockedBlock.ok, ha.1, hlen]
  · cases hr

theorem Run.configureCache_keeps {mode : BitVec 8} {a : Word} (hr : r.configureCache mode a = .ok r') :
    r'.post = r.post ∧ (r.s.Invariant → r'.s.Invariant) := by
  unfold Run.configureCache at hr
  split_ifs at hr
  · cases hr; exact ⟨rfl, fun hs => hs.setCacheMode _ nofun⟩
  · cases hr; exact ⟨rfl, fun hs => hs.setCacheMode _ nofun⟩
  · exact Run.loadAndLock_keeps (.inl rfl) hr
  · exact Run.loadAndLock_keeps (.inr rfl) hr

/-- An initialization with sound parameters gives a sound state. -/
theorem State.Invariant.initialize (hs : s.Invariant) (k : InitKind) {b : Boot} (hb : b.ok = true) :
    (s.initialize k b).Invariant := by
  obtain ⟨hip, -, -, hrc, -, htab, hcfg, hboot, -, himg, hlock, hfl, htc, hte, -, -, -, -, hmem⟩ :=
    s.initialize_cases k b
  simp only [Boot.ok, Bool.and_eq_true, decide_eq_true_eq] at hb
  refine ⟨hmem hs.mem, by rw [himg]; exact hmem hs.mem, by rw [hip]; exact alignTarget_aligned _,
    by rw [htab]; exact hb.1.1, by rw [hcfg]; exact ⟨hb.1.2, hb.2⟩, by rw [hrc]; exact Nat.zero_le _, ?_,
    by rw [htc, hte]; decide, by rw [hboot]; exact hs.boot⟩
  rw [State.lockedOk, hlock, hfl]
  rfl

theorem mask_aligned_four (v : Word) : v &&& 0xFFFFFFFC &&& 3 = 0 := by
  rw [BitVec.and_assoc]
  exact BitVec.and_zero

theorem mask_aligned_sixteen (v : Word) : v &&& 0xFFFFFFF0 &&& 15 = 0 := by
  rw [BitVec.and_assoc]
  exact BitVec.and_zero

/-- The parameters that the PRCB of a reinitialization supplies are sound (log 20). -/
theorem prcbBoot_ok (a p : Word) (d : Nat) : (prcbBoot a p d).ok = true := by
  have htab : (prcbBoot a p d).tables.aligned = true :=
    (Tables.aligned_iff _).2 ⟨mask_aligned_four _, mask_aligned_four _, mask_aligned_four _,
      mask_aligned_sixteen _⟩
  have hmod := Nat.mod_lt (Config.prcbWord p d 7).toNat (show 0 < 15 by decide)
  simp only [Boot.ok, htab, Bool.true_and, Bool.and_eq_true, decide_eq_true_eq]
  exact ⟨Nat.le_add_left .., Nat.succ_le_of_lt hmod⟩

theorem State.Invariant.loadControlGroup (hs : s.Invariant) (g : Nat) :
    (s.loadControlGroup g).Invariant := by
  obtain ⟨c, tc, h⟩ := s.loadGroup_eq g (s.readWord (s.groupAddress g))
    (s.readWord (s.groupAddress g + 4)) (s.readWord (s.groupAddress g + 8))
    (s.readWord (s.groupAddress g + 12))
  rw [State.loadControlGroup, h]
  exact ⟨hs.mem, hs.image, hs.ip, hs.tables, hs.size, hs.rcache, hs.locked, hs.windows, hs.boot⟩

/-- Every message of `sysctl` keeps the invariant and notes no fault. -/
theorem Run.control_keeps {msg f1 : BitVec 8} {f3 f4 : Word} (hr : r.control msg f1 f3 f4 = .ok r') :
    r'.post = r.post ∧ (r.s.Invariant → r'.s.Invariant) := by
  unfold Run.control at hr
  split at hr
  · cases hr; exact r.requestInterrupt_keeps f1
  · cases hr; exact ⟨rfl, State.Invariant.invalidateCache⟩
  · exact Run.configureCache_keeps hr
  · cases hr; exact ⟨rfl, fun hs => hs.initialize _ (prcbBoot_ok _ _ _)⟩
  · obtain ⟨-, rfl⟩ := ok_of_ite_error hr
    exact ⟨rfl, fun hs => hs.loadControlGroup _⟩
  · cases hr

theorem execSysctl_ends {src1 src2 : Src} {src3 : Src3} (h : execSysctl src1 src2 src3 s = .next t) :
    s.Ends true t := by
  unfold execSysctl at h
  split at h
  · exact .inr (takeEarlyFault_enters h)
  · next hem =>
    refine runChecked_ends h fun _ r hr => ?_
    obtain ⟨hp, hi⟩ := Run.control_keeps hr
    exact .of_supervisor (Bool.eq_true_of_not_eq_false hem) hp fun hs =>
      hi ((s.begin_four true).state.inv hs)

end

/-! All instructions. -/

/-- An instruction that gives a next state keeps what it must, enters a fault handler, or is a system
call that enters a supervisor procedure from user mode. -/
theorem exec_ends {i : Instr} {s t : State} (h : exec i s = .next t) :
    s.Ends (writesCc i) t ∨
      (∃ src, i = .calls src) ∧ (s.Enters (writesCc i) t 2 ∨ s.Enters (writesCc i) t 3) := by
  cases i <;> unfold exec at h
  case calls src =>
    rcases execCalls_ends h with h | h
    · exact .inl h
    · exact .inr ⟨⟨src, rfl⟩, h⟩
  case addo | subo | mulo | shlo | shro | shri | shrdi | rotate | and | andnot | notand | xor |
    or | nor | xnor | ornot | notor | nand | setbit | clrbit | notbit | alterbit =>
    exact .inl (binaryForm_ends h)
  case addi | subi | muli | shli => exact .inl (integerForm_ends h)
  case addc | subc => exact .inl (carryForm_ends h)
  case emul => exact .inl (execEmul_ends h)
  case divo | divi | remo | remi | modi => exact .inl (divideForm_ends h)
  case ediv => exact .inl (execEdiv_ends h)
  case eshro => exact .inl (execEshro_ends h)
  case call => exact .inl (execCall_ends h)
  case callx => exact .inl (execCallx_ends h)
  case ret => exact .inl (execRet_ends h)
  case flushreg => exact .inl (execFlushreg_ends h)
  case cmpo | cmpi | concmpo | concmpi | chkbit | scanbyte => exact .inl (codeForm_ends h)
  case cmpinco | cmpinci | cmpdeco | cmpdeci => exact .inl (compareStepForm_ends h)
  case testno | testg | teste | testge | testl | testne | testle | testo =>
    exact .inl (testForm_ends h)
  case b => exact .inl (execB_ends h)
  case bx => exact .inl (execBx_ends h)
  case bal => exact .inl (execBal_ends h)
  case balx => exact .inl (execBalx_ends h)
  case bbc | bbs => exact .inl (bitBranchForm_ends h)
  case cmpobg | cmpobe | cmpobge | cmpobl | cmpobne | cmpoble | cmpibno | cmpibg | cmpibe |
    cmpibge | cmpibl | cmpibne | cmpible | cmpibo => exact .inl (compareBranchForm_ends h)
  case bno | bg | be | bge | bl | bne | ble | bo => exact .inl (conditionBranchForm_ends h)
  case sdma => exact .inl (execSdma_ends h)
  case udma => exact .inl (execUdma_ends h)
  case mark => exact .inl (execMark_ends h)
  case fmark => exact .inl (execFmark_ends h)
  case modtc => exact .inl (execModtc_ends h)
  case syncf => exact .inl (execSyncf_ends h)
  case faultno | faultg | faulte | faultge | faultl | faultne | faultle | faulto =>
    exact .inl (conditionFaultForm_ends h)
  case not => exact .inl (unaryForm_ends h)
  case scanbit | spanbit => exact .inl (unaryCodeForm_ends h)
  case extract | modify => exact .inl (updateForm_ends h)
  case ld | ldob | ldos | ldib | ldis => exact .inl (loadForm_ends h)
  case ldl | ldt | ldq => exact .inl (loadGroupForm_ends h)
  case lda => exact .inl (execLda_ends h)
  case st | stob | stos => exact .inl (storeForm_ends h)
  case stib | stis => exact .inl (storeIntegerForm_ends h)
  case stl | stt | stq => exact .inl (storeGroupForm_ends h)
  case mov | movl | movt | movq => exact .inl (moveForm_ends h)
  case atadd => exact .inl (execAtadd_ends h)
  case atmod => exact .inl (execAtmod_ends h)
  case modac => exact .inl (execModac_ends h)
  case modpc => exact .inl (execModpc_ends h)
  case sysctl => exact .inl (execSysctl_ends h)

/-- Settles O58: where an instruction does not enter a handler it is tame, and both keep the control
state in user mode. -/
theorem userModeKeepsControl : Obligations.UserModeKeepsControl := by
  intro i s t hem h
  rcases exec_ends h with (h | h) | ⟨-, h | h⟩
  · exact (h.user hem).2
  · exact h.user hem
  · exact h.user hem
  · exact h.user hem

/-- Settles O59: a tame instruction stays in user mode, so what leaves it has entered a frame. -/
theorem userModeLeft : Obligations.UserModeLeft := by
  intro i s t hem h ht
  rcases exec_ends h with (h | h) | ⟨hi, h | h⟩
  · rw [(h.user hem).1] at ht
    cases ht
  · exact ⟨h.depth, .inl (by rw [h.kind]; rfl)⟩
  · exact ⟨h.depth, .inr ⟨hi, .inl (by rw [h.kind]; rfl)⟩⟩
  · exact ⟨h.depth, .inr ⟨hi, .inr (by rw [h.kind]; rfl)⟩⟩

/-- Settles O60: tame instructions and the entries of handlers and system procedures keep AC.cc. -/
theorem conditionCodeKept : Obligations.ConditionCodeKept := by
  intro i s t hi h
  rcases exec_ends h with (h | h) | ⟨-, h | h⟩ <;> exact h.cc hi

end Sys2Proof.Machine
end

section
/-! The step keeps the invariant (O11): what lies between the instructions, then the step. -/

namespace Sys2Proof.Machine

section
variable {s t : State}

/-! The inputs. -/

theorem State.Invariant.agentWrites (hs : s.Invariant) (cs : List Host.Cell) :
    (cs.foldl State.agentWrite s).Invariant := by
  obtain ⟨m, h⟩ := State.agentWrites_eq cs s
  have hw := State.agentWrites_wf cs hs.mem
  rw [h] at hw ⊢
  exact ⟨hw, hs.image, hs.ip, hs.tables, hs.size, hs.rcache, hs.locked, hs.windows, hs.boot⟩

/-- A change of the DMA controller or the interrupt controller is none of what the invariant speaks of. -/
theorem State.Invariant.devices (hs : s.Invariant) (d : DmaState) (c : IntCtl) (ts : List (List Host.Cell)) :
    ({ s with dma := d, intc := c, turns := ts } : State).Invariant :=
  ⟨hs.mem, hs.image, hs.ip, hs.tables, hs.size, hs.rcache, hs.locked, hs.windows, hs.boot⟩

theorem State.Invariant.agentStatus (hs : s.Invariant) (ps : List (Fin 4 × Vector Word 8)) :
    (ps.foldl State.agentStatus s).Invariant := by
  induction ps generalizing s with
  | nil => exact hs
  | cons p ps ih =>
    refine ih ?_
    unfold State.agentStatus
    split
    · exact hs.devices _ s.intc s.turns
    · exact hs

theorem State.Invariant.sampleInputs (hs : s.Invariant) : s.sampleInputs.Invariant := by
  unfold State.sampleInputs
  split
  · exact hs.devices s.dma _ []
  · next e rest _ =>
    have hacted := ((hs.devices s.dma { s.intc with events := rest } e.during).agentWrites
      e.writes).agentStatus e.dmaStatus
    exact hacted.devices _ _ _

theorem State.Invariant.warmReset (hs : s.Invariant) (e : ExternalEvent) : (s.warmReset e).Invariant :=
  (((hs.devices { s.dma with started := Vector.replicate 4 false } s.intc s.turns).agentWrites
    e.writes).initialize .warmReset hs.boot).devices _ _ _

/-! Interrupts. -/

/-- Instructions come from the locked copy only where there is one. -/
theorem State.enterInterrupt_lockedOk (h : s.lockedOk = true) (v : BitVec 8) (k : InterruptKind) :
    (s.enterInterrupt v k).lockedOk = true := by
  obtain ⟨l, m, r, ts, tc, i, f, he, -⟩ := s.enterInterrupt_cases v k
  have hlocked : (s.enterInterrupt v k).icache.locked = s.icache.locked := by rw [he]
  have hfetch : (s.enterInterrupt v k).icache.locked = none →
      (s.enterInterrupt v k).icache.fetchingLocked = false := by
    intro hn
    unfold State.enterInterrupt at hn ⊢
    dsimp only at hn ⊢
    rw [State.inLocked, hn, Bool.and_false]
  unfold State.lockedOk at h ⊢
  cases hc : s.icache.locked with
  | none =>
    rw [hc] at hlocked
    simp only [hlocked, hfetch hlocked]
    rfl
  | some b =>
    rw [hc] at hlocked h
    simp only [hlocked]
    exact h

theorem State.Invariant.enterInterrupt (hs : s.Invariant) (v : BitVec 8) (k : InterruptKind) :
    (s.enterInterrupt v k).Invariant := by
  have hlock := State.enterInterrupt_lockedOk hs.locked v k
  obtain ⟨l, m, r, ts, tc, i, f, he, hw, -, hb⟩ := s.enterInterrupt_cases v k
  rw [he] at hlock ⊢
  exact ⟨hw hs.mem, hs.image, alignTarget_aligned _, hs.tables, hs.size, hb hs.size.1 hs.rcache, hlock,
    ⟨hs.windows.1, Nat.zero_le 4⟩, hs.boot⟩

theorem State.Invariant.takeNmi (hs : s.Invariant) : s.takeNmi.Invariant := by
  have hentered := (hs.devices s.dma { s.intc with nmiPending := false } s.turns).enterInterrupt 248 .nmi
  unfold State.takeNmi
  exact hentered.devices _ _ _

theorem State.Invariant.takeHardware (hs : s.Invariant) (v : BitVec 8) : (s.takeHardware v).Invariant := by
  refine State.Invariant.enterInterrupt ?_ v _
  unfold State.clearRequest
  split
  · exact hs.devices s.dma _ s.turns
  · exact hs

/-- What a delivery comes to. -/
def Delivery.state : Delivery → State
  | .entered s => s
  | .quiet s => s

theorem State.Invariant.takeSoftware (hs : s.Invariant) : s.takeSoftware.state.Invariant := by
  unfold State.takeSoftware
  dsimp only
  split
  · exact hs.checkPending
  split
  · exact hs.checkPending
  split
  · exact ((State.Tame.writeWord true s _ _).inv hs).checkPending
  · next b _ =>
    refine State.Invariant.enterInterrupt (State.Invariant.checkPending ?_) _ _
    have hbyte (a : Word) (z : Byte) := (State.Tame.writeByte true s a z).inv hs
    split
    · exact (State.Tame.writeWord true _ _ _).inv (hbyte _ _)
    · exact hbyte _ _

theorem State.Invariant.deliver (hs : s.Invariant) : s.deliver.state.Invariant := by
  unfold State.deliver
  dsimp only
  split
  · exact hs.takeHardware _
  split
  · exact hs.takeSoftware
  · exact hs

/-! The instruction. -/

theorem exec_invariant {i : Instr} (h : exec i s = .next t) (hs : s.Invariant) : t.Invariant := by
  rcases exec_ends h with (h | h) | ⟨-, h | h⟩ <;> exact h.inv hs

theorem State.Invariant.fetch (hs : s.Invariant) : s.fetch.s.Invariant := by
  obtain ⟨d, f, he, hf⟩ := s.fetch_eq
  rw [he]
  refine ⟨hs.mem, hs.image, hs.ip, hs.tables, hs.size, hs.rcache, ?_, hs.windows, hs.boot⟩
  have hl := hs.locked
  unfold State.lockedOk at hl ⊢
  split at hl
  · next hn =>
    simp only [hn]
    cases f with
    | false => rfl
    | true => rw [hf rfl] at hl; cases hl
  · next b hb =>
    simp only [hb]
    exact hl

theorem State.Invariant.runNext (hs : s.Invariant) (h : s.runNext = .next t) : t.Invariant := by
  unfold State.runNext at h
  split at h
  · exact (takeEarlyFault_enters (w := true) h).inv hs
  split at h
  · exact exec_invariant h hs.fetch
  · exact (takeEarlyFault_enters (w := true) h).inv hs.fetch

theorem State.Invariant.afterInterrupts (hs : s.Invariant) (h : s.afterInterrupts = .next t) :
    t.Invariant := by
  have htc (tc : Word) : ({ s with tc := tc } : State).Invariant :=
    ⟨hs.mem, hs.image, hs.ip, hs.tables, hs.size, hs.rcache, hs.locked, hs.windows, hs.boot⟩
  unfold State.afterInterrupts at h
  split at h
  · split at h
    · exact (State.traceFault_enters (w := true) (faultOutcome_next h)).inv (hs.devices s.dma s.intc [])
    · exact (htc _).runNext h
  · exact hs.runNext h

theorem State.Invariant.afterSampling (hs : s.Invariant) (h : s.afterSampling = .next t) :
    t.Invariant := by
  unfold State.afterSampling at h
  split at h
  · cases h
    exact hs.takeNmi
  split at h
  · exact hs.afterInterrupts h
  split at h
  · cases h
  have hd := hs.deliver
  split at h
  · next u hu =>
    cases h
    rwa [hu] at hd
  · next u hu =>
    rw [hu] at hd
    exact State.Invariant.afterInterrupts hd h

theorem State.Invariant.pass (hs : s.Invariant) (h : s.pass = .next t) : t.Invariant := by
  unfold State.pass at h
  split at h
  · exact hs.sampleInputs.afterSampling h
  · cases h

theorem State.Invariant.step (hs : s.Invariant) (h : step s = .next t) : t.Invariant := by
  unfold Machine.step State.boundary at h
  split at h
  · exact hs.pass h
  · next e rest _ =>
    split at h
    · cases h
      exact (hs.devices s.dma { s.intc with events := rest } s.turns).warmReset e
    · exact hs.pass h

end

/-- Settles O11: each part of the loop keeps the invariant. -/
theorem stepKeepsInvariant : Obligations.StepKeepsInvariant := by
  intro s t hs h
  rw [State.inv_iff] at hs ⊢
  exact hs.step h

end Sys2Proof.Machine
end

section
/-! What the shared shapes of the register instructions answer with tracing off and operands that can be
used; then the moves and the logical instructions (O20, O22). -/

namespace Sys2Proof.Machine

section
variable {s : State} {len : Word} {us : List Use}

/-- Putting a list of words changes the state only. -/
theorem Run.putAll_modify (r : Run) (o : Operand) (k : Nat) (ws : List Word) :
    r.putAll o k ws = r.modify fun t => t.putWords o k ws := Run.putAll_eq r o k ws

/-- Without operands there is nothing to check. -/
theorem runChecked_nil (s : State) (len : Word) (body : Run → Except Stop Run) :
    runChecked s len [] body = runInstr s len body := runChecked_of_canUse rfl body

/-- A body that faults before execution leaves the state as it was. -/
theorem runInstr_trap {body : Run → Except Stop Run} {c : FaultCode}
    (hb : body (s.begin len) = .error (.trap c)) :
    runInstr s len body = takeFault s s c (s.ip + len) := by
  rw [runInstr, hb]

/-- With tracing off, an instruction that notes a fault raises it at the state that it has reached. -/
theorem runInstr_untraced_fault (h : s.untraced = true) {body : Run → Except Stop Run} {r : Run}
    {c : FaultCode}
    (hb : body { s := s.advance len, modes := s.tc, te := s.te, noted := 0, post := none,
                 late := none } = .ok r)
    (hm : r.modes &&& 0xFE = 0) (hn : r.noted &&& 0x0F800000 = 0) (hp : r.post = some c)
    (hl : r.late = none) : runInstr s len body = takeFault s r.s c r.s.ip := by
  have he : r.events = 0 := Run.events_of_no_mode hm hn
  simp only [runInstr, State.begin_untraced h, hb, Run.finish, hp, Run.signalled, he, hl,
    State.signal_zero]

/-- How an instruction that has reached `u` ends that may overflow (`41_arithmetic.md` R262). -/
def State.overflowEnds (s u : State) (ov : Bool) : Host.Outcome State Fault Refusal :=
  if ov then
    if u.om then .next { u with ac := putBit u.ac 8 true } else takeFault s u .integerOverflow u.ip
  else .next u

theorem runChecked_overflow (h : s.untraced = true) (hu : s.canUseAll us = true) (len : Word)
    (f : State → State) (ov : Bool) :
    runChecked s len us (fun r => .ok ((r.modify f).overflow ov)) =
      s.overflowEnds (f (s.advance len)) ov := by
  have hm := (s.untraced_iff.1 h).1
  rw [runChecked_of_canUse hu, State.overflowEnds]
  cases hov : ov with
  | false =>
    exact runInstr_untraced h (r := ⟨f (s.advance len), s.tc, s.te, 0, none, none⟩) rfl hm
      BitVec.zero_and rfl rfl
  | true =>
    simp only [Run.overflow, if_true]
    cases hom : (f (s.advance len)).om with
    | true =>
      exact runInstr_untraced h
        (r := ⟨{ f (s.advance len) with ac := putBit (f (s.advance len)).ac 8 true }, s.tc, s.te, 0, none,
          none⟩) (by rw [Run.modify_s, hom]; rfl) hm BitVec.zero_and rfl rfl
    | false =>
      exact runInstr_untraced_fault h
        (r := ⟨f (s.advance len), s.tc, s.te, 0, some .integerOverflow, none⟩)
        (by rw [Run.modify_s, hom]; rfl) hm BitVec.zero_and rfl rfl

end

section
variable {s : State} (h : s.untraced = true) {src1 src2 : Src} {dst : Dst}

include h

/-- An instruction that writes its destination and the condition code. -/
theorem runChecked_put_setCc {us : List Use} (hu : s.canUseAll us = true) (len : Word) (o : Operand)
    (v : Word) (c : BitVec 3) :
    runChecked s len us (fun r => .ok ((r.put o 0 v).setCc c)) =
      .next (((s.advance len).putValue o 0 v).setCc c) :=
  runChecked_modify h hu len fun t => (t.putValue o 0 v).setCc c

theorem unaryForm_untraced
    (hu : s.canUseAll [(srcOperand src1).one, (dstOperand dst).one] = true) (f : Word → Word) :
    unaryForm s src1 dst f =
      .next ((s.advance 4).putValue (dstOperand dst) 0 (f (s.value (srcOperand src1) 0))) :=
  runChecked_modify h hu 4 _

theorem unaryCodeForm_untraced
    (hu : s.canUseAll [(srcOperand src1).one, (dstOperand dst).one] = true)
    (f : Word → Word × BitVec 3) :
    unaryCodeForm s src1 dst f =
      .next (((s.advance 4).putValue (dstOperand dst) 0 (f (s.value (srcOperand src1) 0)).1).setCc
        (f (s.value (srcOperand src1) 0)).2) :=
  runChecked_put_setCc h hu 4 _ _ _

theorem moveForm_untraced {wd al : Nat}
    (hu : s.canUseAll [⟨srcOperand src1, wd, al⟩, ⟨dstOperand dst, wd, al⟩] = true) :
    moveForm s src1 dst wd al = .next ((s.advance 4).putWords (dstOperand dst) 0
      ((List.range wd).map (s.value (srcOperand src1)))) := by
  rw [moveForm]
  simp only [Run.putAll_modify]
  exact runChecked_modify h hu 4 _

theorem updateForm_untraced {n : RegNum}
    (hu : s.canUseAll [(srcOperand src1).one, (srcOperand src2).one] = true)
    (f : Word → Word → Word → Word) :
    updateForm s src1 src2 (.reg n) f = .next ((s.advance 4).setReg n
      (f (s.value (srcOperand src1) 0) (s.value (srcOperand src2) 0) (s.getReg n))) := by
  have hu' : s.canUseAll [(srcOperand src1).one, (srcOperand src2).one, (updOperand (.reg n)).one] =
      true := by
    have hn : s.canUse (updOperand (.reg n)).one = true := by
      simp [State.canUse, updOperand, Operand.one, Nat.mod_one]
    simpa [State.canUseAll, hn] using hu
  have hn0 : n + BitVec.ofNat 5 0 = n := BitVec.add_zero n
  refine (runChecked_modify h hu' 4 _).trans ?_
  simp only [updOperand, State.putValue, State.value, hn0]

theorem integerForm_untraced
    (hu : s.canUseAll [(srcOperand src1).one, (srcOperand src2).one, (dstOperand dst).one] = true)
    (f : Word → Word → Word × Bool) :
    integerForm s src1 src2 dst f = s.overflowEnds ((s.advance 4).putValue (dstOperand dst) 0
      (f (s.value (srcOperand src1) 0) (s.value (srcOperand src2) 0)).1)
      (f (s.value (srcOperand src1) 0) (s.value (srcOperand src2) 0)).2 :=
  runChecked_overflow h hu 4 _ _

theorem divideForm_untraced
    (hu : s.canUseAll [(srcOperand src1).one, (srcOperand src2).one, (dstOperand dst).one] = true)
    (hx : s.value (srcOperand src1) 0 ≠ 0) (f : Word → Word → Word × Bool) :
    divideForm s src1 src2 dst f = s.overflowEnds ((s.advance 4).putValue (dstOperand dst) 0
      (f (s.value (srcOperand src1) 0) (s.value (srcOperand src2) 0)).1)
      (f (s.value (srcOperand src1) 0) (s.value (srcOperand src2) 0)).2 := by
  simp only [divideForm, if_neg hx]
  exact runChecked_overflow h hu 4 _ _

theorem carryForm_untraced
    (hu : s.canUseAll [(srcOperand src1).one, (srcOperand src2).one, (dstOperand dst).one] = true)
    (f : Word → Word → Bool → Word × Bool) (g : Word → Word → Bool → Bool) :
    carryForm s src1 src2 dst f g =
      .next (((s.advance 4).putValue (dstOperand dst) 0
          (f (s.value (srcOperand src1) 0) (s.value (srcOperand src2) 0) (s.cc.getLsbD 1)).1).setCc
        (carryCode
          (f (s.value (srcOperand src1) 0) (s.value (srcOperand src2) 0) (s.cc.getLsbD 1)).2
          (g (s.value (srcOperand src1) 0) (s.value (srcOperand src2) 0) (s.cc.getLsbD 1)))) :=
  runChecked_put_setCc h hu 4 _ _ _

theorem compareStepForm_untraced
    (hu : s.canUseAll [(srcOperand src1).one, (srcOperand src2).one, (dstOperand dst).one] = true)
    (f : Word → Word → BitVec 3) (g : Word → Word) :
    compareStepForm s src1 src2 dst f g =
      .next (((s.advance 4).putValue (dstOperand dst) 0 (g (s.value (srcOperand src2) 0))).setCc
        (f (s.value (srcOperand src1) 0) (s.value (srcOperand src2) 0))) :=
  runChecked_put_setCc h hu 4 _ _ _

/-- A binary instruction, with the value that it writes. -/
theorem binaryForm_done
    (hu : s.canUseAll [(srcOperand src1).one, (srcOperand src2).one, (dstOperand dst).one] = true)
    {f : Word → Word → Word} {v : Word}
    (hv : f (s.value (srcOperand src1) 0) (s.value (srcOperand src2) 0) = v) :
    binaryForm s src1 src2 dst f = .next ((s.advance 4).putValue (dstOperand dst) 0 v) := by
  rw [binaryForm_untraced h hu, hv]

end

/-! Moves (`40_data_movement.md` R240 to R243). -/

/-- Settles O20. -/
theorem moveResults : Obligations.MoveResults := by
  intro src dst s h
  refine ⟨fun hu => ?_, fun hu => ?_, fun hu => ?_, fun hu => ?_⟩ <;> exact moveForm_untraced h hu

/-! Logical instructions (`42_logical_bit.md` R301 to R311). -/

/-- The opcode of a packed REG word is in its two fields. -/
theorem packReg_opcode (hi : BitVec 8) (lo : BitVec 4) (d b : BitVec 5) (m3 m2 m1 k2 k1 : Bool)
    (a : BitVec 5) : (packReg hi lo d b m3 m2 m1 k2 k1 a).extractLsb' 24 8 ++
      (packReg hi lo d b m3 m2 m1 k2 k1 a).extractLsb' 7 4 = hi ++ lo := by
  rw [packReg_op, packReg_sub]

theorem xor_eq_or_and_not (x y : Word) : y ^^^ x = (y ||| x) &&& ~~~(y &&& x) := by
  refine BitVec.eq_of_getElem_eq fun i hi => ?_
  simp only [BitVec.getElem_xor, BitVec.getElem_and, BitVec.getElem_or, BitVec.getElem_not]
  cases y[i] <;> cases x[i] <;> rfl

theorem xnor_eq_nor_or_and (x y : Word) : ~~~(y ^^^ x) = ~~~(y ||| x) ||| (y &&& x) := by
  refine BitVec.eq_of_getElem_eq fun i hi => ?_
  simp only [BitVec.getElem_xor, BitVec.getElem_and, BitVec.getElem_or, BitVec.getElem_not]
  cases y[i] <;> cases x[i] <;> rfl

/-- Settles O22. The opcodes are what the encoder packs; the functions are those of the model but for
the two that the table writes with other connectives. -/
theorem logicalResults : Obligations.LogicalResults := by
  intro src1 src2 dst s h
  refine ⟨fun _ => rfl, ?_, fun hu => ?_, fun hu => ?_⟩
  · simp only [List.forall_mem_cons]
    refine ⟨?_, ?_, ?_, ?_, ?_, ?_, ?_, ?_, ?_, ?_, ?_, List.forall_mem_nil _⟩ <;> exact packReg_opcode _ _ _ _ _ _ _ _ _ _
  · unfold exec
    exact unaryForm_untraced h hu _
  · refine ⟨?_, ?_, ?_, ?_, ?_, ?_, ?_, ?_, ?_, ?_⟩ <;> unfold exec <;> refine binaryForm_done h hu ?_
    case refine_4 => exact xor_eq_or_and_not _ _
    case refine_7 => exact xnor_eq_nor_or_and _ _
    all_goals rfl

end Sys2Proof.Machine
end

section
/-! Arithmetic (`41_arithmetic.md`): what the operations compute, in numbers; then O25 to O31. -/

namespace Sys2Proof.Machine

/-! Ordinals. -/

theorem add_eq_ofNat (x y : Word) : y + x = BitVec.ofNat 32 (y.toNat + x.toNat) :=
  BitVec.eq_of_toNat_eq ((BitVec.toNat_add ..).trans (BitVec.toNat_ofNat ..).symm)

theorem mul_eq_ofNat (x y : Word) : y * x = BitVec.ofNat 32 (y.toNat * x.toNat) :=
  BitVec.eq_of_toNat_eq ((BitVec.toNat_mul ..).trans (BitVec.toNat_ofNat ..).symm)

theorem sub_eq_ofNat (x y : Word) : y - x = BitVec.ofNat 32 (y.toNat + 2 ^ 32 - x.toNat) := by
  refine BitVec.eq_of_toNat_eq ?_
  have hx := x.isLt
  rw [BitVec.toNat_sub, BitVec.toNat_ofNat]
  congr 1
  omega

theorem shiftLeftOrdinal_eq_ofNat (x y : Word) :
    shiftLeftOrdinal x y = BitVec.ofNat 32 (if x.toNat < 32 then y.toNat * 2 ^ x.toNat else 0) := by
  unfold shiftLeftOrdinal
  split
  · refine BitVec.eq_of_toNat_eq ?_
    rw [BitVec.toNat_shiftLeft, BitVec.toNat_ofNat, Nat.shiftLeft_eq]
  · rfl

theorem shiftRightOrdinal_eq_ofNat (x y : Word) :
    shiftRightOrdinal x y = BitVec.ofNat 32 (if x.toNat < 32 then y.toNat / 2 ^ x.toNat else 0) := by
  unfold shiftRightOrdinal
  split
  · refine BitVec.eq_of_toNat_eq ?_
    have hlt := Nat.lt_of_le_of_lt (Nat.div_le_self y.toNat (2 ^ x.toNat)) y.isLt
    rw [BitVec.toNat_ushiftRight, BitVec.toNat_ofNat, Nat.shiftRight_eq_div_pow, Nat.mod_eq_of_lt hlt]
  · rfl

/-- The two parts of a rotated number do not overlap. -/
theorem rotate_parts {k n : Nat} (hk : k < 32) (hn : n < 2 ^ 32) :
    n * 2 ^ k % 2 ^ 32 ||| n / 2 ^ (32 - k) = (n * 2 ^ k + n / 2 ^ (32 - k)) % 2 ^ 32 := by
  have hsplit : 2 ^ 32 = 2 ^ (32 - k) * 2 ^ k := by rw [← Nat.pow_add]; congr 1; omega
  have hhigh : n / 2 ^ (32 - k) < 2 ^ k := by
    rw [Nat.div_lt_iff_lt_mul (Nat.two_pow_pos _), Nat.mul_comm, ← hsplit]
    exact hn
  have hlow : n * 2 ^ k % 2 ^ 32 = 2 ^ k * (n % 2 ^ (32 - k)) := by
    rw [hsplit, Nat.mul_mod_mul_right, Nat.mul_comm]
  have hsum : 2 ^ k * (n % 2 ^ (32 - k)) + n / 2 ^ (32 - k) < 2 ^ 32 := by
    have hmod := Nat.mod_lt n (Nat.two_pow_pos (32 - k))
    calc 2 ^ k * (n % 2 ^ (32 - k)) + n / 2 ^ (32 - k)
        < 2 ^ k * (n % 2 ^ (32 - k)) + 2 ^ k := Nat.add_lt_add_left hhigh _
      _ = 2 ^ k * (n % 2 ^ (32 - k) + 1) := (Nat.mul_succ ..).symm
      _ ≤ 2 ^ k * 2 ^ (32 - k) := Nat.mul_le_mul_left _ hmod
      _ = 2 ^ 32 := by rw [hsplit, Nat.mul_comm]
  rw [Nat.add_mod, hlow, ← Nat.two_pow_add_eq_or_of_lt hhigh,
    Nat.mod_eq_of_lt (Nat.lt_of_le_of_lt (Nat.div_le_self ..) hn), Nat.mod_eq_of_lt hsum]

theorem rotateLeft_eq_ofNat (x y : Word) : rotateLeft x y =
    BitVec.ofNat 32 (y.toNat * 2 ^ (x.toNat % 32) + y.toNat / 2 ^ (32 - x.toNat % 32)) := by
  refine BitVec.eq_of_toNat_eq ?_
  rw [rotateLeft, BitVec.toNat_or, BitVec.toNat_shiftLeft, BitVec.toNat_ushiftRight,
    Nat.shiftLeft_eq, Nat.shiftRight_eq_div_pow, BitVec.toNat_ofNat]
  exact rotate_parts (Nat.mod_lt _ (by decide)) y.isLt

/-- Settles O25. -/
theorem ordinalResults : Obligations.OrdinalResults := by
  intro src1 src2 dst s h hu
  refine ⟨?addo, ?subo, ?mulo, ?shlo, ?shro, ?rotate⟩ <;> unfold exec <;> refine binaryForm_done h hu ?_
  case addo => exact add_eq_ofNat _ _
  case subo => exact sub_eq_ofNat _ _
  case mulo => exact mul_eq_ofNat _ _
  case shlo => exact shiftLeftOrdinal_eq_ofNat _ _
  case shro => exact shiftRightOrdinal_eq_ofNat _ _
  case rotate => exact rotateLeft_eq_ofNat _ _

/-! Integers (R261, R262). -/

theorem fitsInteger_iff (r : Int) : fitsInteger r = true ↔ -(2 ^ 31) ≤ r ∧ r ≤ 2 ^ 31 - 1 := by
  rw [fitsInteger, Bool.and_eq_true, decide_eq_true_iff, decide_eq_true_iff]

theorem putBit_of (w : Word) : putBit w 8 true = w ||| 0x100 := rfl

/-- The end of an instruction that may overflow, where it has kept AC so far. -/
theorem State.overflowEnds_of {s u : State} {len : Word} (hac : u.ac = s.ac) (hip : u.ip = s.ip + len)
    (ov : Bool) : s.overflowEnds u ov =
      if ov then
        if s.om then .next { u with ac := s.ac ||| 0x100 }
        else takeFault s u .integerOverflow (s.ip + len)
      else .next u := by
  have hom : u.om = s.om := by rw [State.om, hac]; rfl
  rw [State.overflowEnds, hom, hac, hip, putBit_of]

/-- The end of an instruction whose exact result is `r`, written out. -/
theorem State.overflowEnds_narrow (s : State) (o : Operand) (r : Int) :
    s.overflowEnds ((s.advance 4).putValue o 0 (narrow r).1) (narrow r).2 =
      if -(2 ^ 31) ≤ r ∧ r ≤ 2 ^ 31 - 1 then
        .next ((s.advance 4).putValue o 0 (BitVec.ofInt 32 r))
      else if s.om then
        .next { (s.advance 4).putValue o 0 (BitVec.ofInt 32 r) with ac := s.ac ||| 0x100 }
      else takeFault s ((s.advance 4).putValue o 0 (BitVec.ofInt 32 r)) .integerOverflow (s.ip + 4) := by
  rw [State.overflowEnds_of (len := 4) (by simp [narrow]) (by simp [narrow])]
  simp only [← fitsInteger_iff, narrow]
  by_cases hf : fitsInteger r = true
  · simp only [hf, Bool.not_true, Bool.false_eq_true, if_false, if_true]
  · simp only [hf, Bool.not_false, Bool.false_eq_true, if_false, if_true]

/-- Settles O26. -/
theorem integerResults : Obligations.IntegerResults := by
  intro src1 src2 dst s h hu
  refine ⟨?addi, ?subi, ?muli, fun hx => ?divi⟩ <;> unfold exec
  case addi => exact (integerForm_untraced h hu addInteger).trans (s.overflowEnds_narrow _ _)
  case subi => exact (integerForm_untraced h hu subInteger).trans (s.overflowEnds_narrow _ _)
  case muli => exact (integerForm_untraced h hu mulInteger).trans (s.overflowEnds_narrow _ _)
  case divi =>
    have hx0 : s.value (srcOperand src1) 0 ≠ 0 := fun h0 => hx (by rw [h0]; rfl)
    exact (divideForm_untraced h hu hx0 divInteger).trans (s.overflowEnds_narrow _ _)

/-! Shifts of integers (R284 to R286). -/

theorem shiftRightDividing_eq (x y : Word) :
    shiftRightDividing x y = BitVec.ofInt 32 (Int.tdiv y.toInt (2 ^ shiftCount x)) := by
  have hpos : (0 : Int) < 2 ^ shiftCount x := Int.pow_pos (by decide)
  have hdvd : (2 ^ shiftCount x : Int) ∣ y.toInt ↔ y.toInt % 2 ^ shiftCount x = 0 :=
    Int.dvd_iff_emod_eq_zero
  have hneg : (y.toInt < 0 ∧ y.toInt % 2 ^ shiftCount x ≠ 0) ↔
      ¬(0 ≤ y.toInt ∨ (2 ^ shiftCount x : Int) ∣ y.toInt) := by
    rw [hdvd, not_or, not_le]
  rw [shiftRightDividing, Int.tdiv_eq_ediv, Int.sign_eq_one_of_pos hpos]
  simp only [hneg]
  by_cases hn : 0 ≤ y.toInt ∨ (2 ^ shiftCount x : Int) ∣ y.toInt
  · rw [if_neg (not_not.2 hn), if_pos hn, Int.add_zero]
  · rw [if_pos hn, if_neg hn]

/-- The value of a word by its top two bits. -/
theorem top_bits_iff (w : Word) : w.getLsbD 31 = w.getLsbD 30 ↔
    -(2 ^ 31) ≤ w.toInt * 2 ∧ w.toInt * 2 ≤ 2 ^ 31 - 1 := by
  have hlt := w.isLt
  have hbit (k : Nat) : w.getLsbD k = decide (w.toNat / 2 ^ k % 2 = 1) :=
    Nat.testBit_eq_decide_div_mod_eq
  rw [hbit, hbit, decide_eq_decide, BitVec.toInt_eq_toNat_cond]
  split <;> omega

theorem toInt_shiftLeft_one {w : Word} (h : -(2 ^ 31) ≤ w.toInt * 2 ∧ w.toInt * 2 ≤ 2 ^ 31 - 1) :
    (w <<< 1).toInt = w.toInt * 2 := by
  have hlt := w.isLt
  rw [BitVec.toInt_eq_toNat_cond] at h ⊢
  rw [BitVec.toInt_eq_toNat_cond, BitVec.toNat_shiftLeft, Nat.shiftLeft_eq]
  split at h <;> split <;> omega

/-- A number that fits after it is doubled `k` times fits before. -/
theorem fits_of_mul_pow {v : Int} {k : Nat} (h : -(2 ^ 31) ≤ v * 2 ^ k ∧ v * 2 ^ k ≤ 2 ^ 31 - 1) :
    -(2 ^ 31) ≤ v ∧ v ≤ 2 ^ 31 - 1 := by
  have hpos : (1 : Int) ≤ 2 ^ k := Int.pow_pos (by decide)
  constructor <;> nlinarith [h.1, h.2]

/-- A shift whose product fits comes to its end. -/
theorem shiftLeftLoop_of_fits {i : Nat} {w : Word}
    (h : -(2 ^ 31) ≤ w.toInt * 2 ^ i ∧ w.toInt * 2 ^ i ≤ 2 ^ 31 - 1) :
    shiftLeftLoop i w = (BitVec.ofInt 32 (w.toInt * 2 ^ i), 0) := by
  induction i generalizing w with
  | zero => simp [shiftLeftLoop]
  | succ i ih =>
    have hpow : w.toInt * 2 ^ (i + 1) = w.toInt * 2 * 2 ^ i := by rw [pow_succ]; ring
    rw [hpow] at h ⊢
    have htwo := fits_of_mul_pow h
    rw [shiftLeftLoop, if_pos ((top_bits_iff w).2 htwo), ih (by rwa [toInt_shiftLeft_one htwo]),
      toInt_shiftLeft_one htwo]

/-- A shift stops where one more doubling does not fit, with the rest of its count. -/
theorem shiftLeftLoop_of_not_fits {k i : Nat} {w : Word} (hk : k < i)
    (h : -(2 ^ 31) ≤ w.toInt * 2 ^ k ∧ w.toInt * 2 ^ k ≤ 2 ^ 31 - 1)
    (hn : ¬(-(2 ^ 31) ≤ w.toInt * 2 ^ (k + 1) ∧ w.toInt * 2 ^ (k + 1) ≤ 2 ^ 31 - 1)) :
    shiftLeftLoop i w = (BitVec.ofInt 32 (w.toInt * 2 ^ k), i - k) := by
  obtain ⟨i, rfl⟩ : ∃ j, i = j + 1 := ⟨i - 1, by omega⟩
  induction k generalizing i w with
  | zero =>
    rw [zero_add, pow_one] at hn
    rw [shiftLeftLoop, if_neg fun hb => hn ((top_bits_iff w).1 hb)]
    simp
  | succ k ih =>
    have hpow (j : Nat) : w.toInt * 2 ^ (j + 1) = w.toInt * 2 * 2 ^ j := by rw [pow_succ]; ring
    rw [hpow] at h hn
    have htwo := fits_of_mul_pow h
    obtain ⟨i, rfl⟩ : ∃ j, i = j + 1 := ⟨i - 1, by omega⟩
    have hloop := ih (w := w <<< 1) (by rwa [toInt_shiftLeft_one htwo])
      (by rwa [toInt_shiftLeft_one htwo]) i (by omega)
    rw [shiftLeftLoop, if_pos ((top_bits_iff w).2 htwo), hloop, toInt_shiftLeft_one htwo, hpow,
      Nat.add_sub_add_right]

/-- Settles O27. -/
theorem shiftIntegerResults : Obligations.ShiftIntegerResults := by
  intro src1 src2 dst s h hu n y fits u
  refine ⟨?shri, ?shrdi, fun hfit => ?fit, fun k hk hfit hn => ?overflow⟩ <;> unfold exec
  case shri => exact binaryForm_done h hu rfl
  case shrdi => exact binaryForm_done h hu (shiftRightDividing_eq _ _)
  case fit =>
    have hloop := shiftLeftLoop_of_fits hfit
    refine (integerForm_untraced h hu shiftLeftInteger).trans ?_
    rw [shiftLeftInteger]
    exact hloop ▸ rfl
  case overflow =>
    have hloop := shiftLeftLoop_of_not_fits hk hfit hn
    have hleft : (n - k != 0) = true := by rw [bne_iff_ne]; omega
    have hends := State.overflowEnds_of (s := s) (u := u (y * 2 ^ k)) (len := 4) (by simp [u])
      (by simp [u]) (n - k != 0)
    rw [hleft] at hends
    refine (integerForm_untraced h hu shiftLeftInteger).trans (Eq.trans ?_ hends)
    rw [shiftLeftInteger, ← hleft]
    exact hloop ▸ rfl

/-! Carries (R268, R271). -/

theorem carryCode_eq (c o : Bool) :
    carryCode c o = (if c = true then 2 else 0) ||| (if o = true then 1 else 0) := by
  cases c <;> cases o <;> rfl

theorem not_fitsInteger_iff (r : Int) : (!fitsInteger r) = true ↔ r < -(2 ^ 31) ∨ 2 ^ 31 - 1 < r := by
  rw [Bool.not_eq_true', ← Bool.not_eq_true, fitsInteger_iff]
  omega

/-- Settles O28. The difference adds the complement of src1. -/
theorem carryResults : Obligations.CarryResults := by
  intro src1 src2 dst s h hu x y cin ends
  have hcin : (s.cc.getLsbD 1).toNat = cin := by
    simp only [cin]
    cases s.cc.getLsbD 1 <;> rfl
  have hcode (total : Nat) (signed : Int) :
      carryCode (decide (2 ^ 32 ≤ total)) (!fitsInteger signed) =
        (if 2 ^ 32 ≤ total then 2 else 0) |||
          (if signed < -(2 ^ 31) ∨ 2 ^ 31 - 1 < signed then 1 else 0) := by
    simp only [carryCode_eq, not_fitsInteger_iff, decide_eq_true_eq]
  refine ⟨?addc, ?subc⟩ <;> unfold exec <;> refine (carryForm_untraced h hu _ _).trans ?_
  case addc => simp only [addCarry, addOverflow, hcin, hcode, ends, x, y]
  case subc =>
    have hnot : (~~~x).toNat = 2 ^ 32 - 1 - x.toNat := BitVec.toNat_not
    simp only [subCarry, addCarry, subOverflow, hcin, hcode, ends, y, ← hnot, x]

/-! Division (R263 to R265, R275 to R280). -/

theorem modInteger_eq (x y : Word) (hx : x ≠ 0) :
    modInteger x y = BitVec.ofInt 32 (Int.fmod y.toInt x.toInt) := by
  have hx0 : x.toInt ≠ 0 := fun h0 => hx (BitVec.eq_of_toInt_eq h0)
  have hr : Int.tmod y.toInt x.toInt = 0 ↔ x.toInt ∣ y.toInt :=
    ⟨Int.dvd_of_tmod_eq_zero, Int.tmod_eq_zero_of_dvd⟩
  rw [modInteger, Int.fmod_eq_tmod]
  by_cases hd : x.toInt ∣ y.toInt
  · rw [if_pos hd, if_neg fun hc => hc.2 (hr.2 hd), Int.add_zero]
  · have hy0 : y.toInt ≠ 0 := fun h0 => hd (h0 ▸ Int.dvd_zero _)
    have hsign : (y.toInt * x.toInt < 0 ∧ Int.tmod y.toInt x.toInt ≠ 0) ↔
        (0 < y.toInt ∧ x.toInt < 0 ∨ y.toInt < 0 ∧ 0 < x.toInt) := by
      rw [and_iff_left fun h0 => hd (hr.1 h0)]
      exact mul_neg_iff
    rw [if_neg hd]
    simp only [hsign]
    congr 1
    split_ifs <;> omega

/-- The quotient of two integers overflows in one case only (D27). -/
theorem fitsInteger_tdiv (x y : Word) (hx : x ≠ 0) :
    fitsInteger (Int.tdiv y.toInt x.toInt) = true ↔ ¬(x = 0xFFFFFFFF ∧ y = 0x80000000) := by
  have hx0 : x.toInt ≠ 0 := fun h0 => hx (BitVec.eq_of_toInt_eq h0)
  have hone : x = 0xFFFFFFFF ↔ x.toInt = -1 := ⟨fun h => by rw [h]; decide, fun h =>
    BitVec.eq_of_toInt_eq (h.trans (by decide))⟩
  have hmin : y = 0x80000000 ↔ y.toInt = -2 ^ 31 := ⟨fun h => by rw [h]; decide, fun h =>
    BitVec.eq_of_toInt_eq (h.trans (by decide))⟩
  have hlo := BitVec.le_toInt y
  have hhi := BitVec.toInt_lt (x := y)
  rw [fitsInteger_iff, hone, hmin]
  by_cases h1 : x.toInt = -1
  · rw [h1, Int.tdiv_neg, Int.tdiv_one]
    omega
  by_cases h2 : x.toInt = 1
  · rw [h2, Int.tdiv_one]
    omega
  · have hq : (Int.tdiv y.toInt x.toInt).natAbs ≤ y.toInt.natAbs / 2 := by
      rw [Int.natAbs_tdiv]
      exact Nat.div_le_div_left (by omega) (by decide)
    omega

/-- Settles O29. -/
theorem divisionResults : Obligations.DivisionResults := by
  intro src1 src2 dst s h hu x y done hx
  refine ⟨?divo, ?remo, fun hn => ?remi, ?modi, fun hc => ?overflow⟩ <;> unfold exec
  case divo => exact divideForm_untraced h hu hx _
  case remo => exact divideForm_untraced h hu hx _
  case modi =>
    refine (divideForm_untraced h hu hx _).trans ?_
    exact congrArg (fun v => Host.Outcome.next ((s.advance 4).putValue (dstOperand dst) 0 v))
      (modInteger_eq x y hx)
  case remi =>
    refine (divideForm_untraced h hu hx remInteger).trans ?_
    have hfit := (fitsInteger_tdiv x y hx).2 hn
    simp only [x, y] at hfit
    simp only [State.overflowEnds, remInteger, hfit]
    rfl
  case overflow =>
    have hfit : fitsInteger (Int.tdiv y.toInt x.toInt) = false :=
      Bool.eq_false_of_not_eq_true fun hf => (fitsInteger_tdiv x y hx).1 hf hc
    have hrem : remInteger x y = (0, true) := by
      rw [remInteger, hfit, hc.1, hc.2]
      decide
    refine (divideForm_untraced h hu hx remInteger).trans ?_
    simp only [x, y] at hrem
    simp only [hrem]
    exact State.overflowEnds_of (len := 4) (by simp) (by simp) true

/-- Settles O30. -/
theorem zeroDivide : Obligations.ZeroDivide := by
  intro src1 src2 dst s hx
  have hdiv (f : Word → Word → Word × Bool)
      (hu : s.canUseAll [(srcOperand src1).one, (srcOperand src2).one, (dstOperand dst).one] = true) :
      divideForm s src1 src2 dst f = takeFault s s .zeroDivide (s.ip + 4) :=
    (runChecked_of_canUse hu _).trans (runInstr_trap (if_pos hx))
  refine ⟨fun hu => ?_, fun hu => (runChecked_of_canUse hu _).trans (runInstr_trap (if_pos hx))⟩
  simp only [List.forall_mem_cons]
  refine ⟨?_, ?_, ?_, ?_, ?_, List.forall_mem_nil _⟩ <;> unfold exec <;> exact hdiv _ hu

/-! Operands of 64 bits (R265, R274, R280, R289). -/

/-- Settles O31. -/
theorem extendedResults : Obligations.ExtendedResults := by
  intro src1 src2 dst s h x y n done
  refine ⟨fun hu => ?emul, fun hu hx => ⟨fun hq => ?fits, fun hq => ?free⟩, fun hu => ?eshro⟩
  case emul =>
    unfold exec execEmul
    simp only [Run.putAll_modify]
    exact runChecked_modify h hu 4 _
  case eshro =>
    unfold exec
    exact runChecked_modify h hu 4 _
  all_goals
    have hx0 : s.value (srcOperand src1) 0 ≠ 0 := fun h0 => hx (congrArg BitVec.toNat h0)
    unfold exec execEdiv
    simp only [if_neg hx0, Run.putAll_modify]
  case fits =>
    have hw (d : Nat) : edivWords (s.value (srcOperand src1) 0)
        (longOrdinal (s.value (srcOperand src2) 0) (s.value (srcOperand src2) 1)) d =
        [BitVec.ofNat 32 (n % x), BitVec.ofNat 32 (n / x)] := if_pos hq
    simp only [hw]
    have hq' : longOrdinal (s.value (srcOperand src2) 0) (s.value (srcOperand src2) 1) /
      (s.value (srcOperand src1) 0).toNat < 2 ^ 32 := hq
    simp only [if_pos hq']
    exact runChecked_modify h hu 4 _
  case free =>
    have hq' : ¬longOrdinal (s.value (srcOperand src2) 0) (s.value (srcOperand src2) 1) /
      (s.value (srcOperand src1) 0).toNat < 2 ^ 32 := not_lt.2 hq
    have hw (d : Nat) : edivWords (s.value (srcOperand src1) 0)
        (longOrdinal (s.value (srcOperand src2) 0) (s.value (srcOperand src2) 1)) d =
        [Config.freeWord d, Config.freeWord (d + 1)] := if_neg hq'
    simp only [hw, if_neg hq']
    refine ⟨Config.freeWord s.draws, Config.freeWord (s.draws + 1), ((s.advance 4).putWords
      (dstOperand dst) 0 [Config.freeWord s.draws, Config.freeWord (s.draws + 1)]).draws + 2, ?_⟩
    exact runChecked_modify h hu 4 fun t =>
      { t.putWords (dstOperand dst) 0 [Config.freeWord t.draws, Config.freeWord (t.draws + 1)] with
        draws := (t.putWords (dstOperand dst) 0
          [Config.freeWord t.draws, Config.freeWord (t.draws + 1)]).draws + 2 }

end Sys2Proof.Machine
end

section
/-! Bit fields, comparisons, tests and branches (`42_logical_bit.md` section 3, `43_compare_branch.md`,
`45_fault_debug.md` section 3): O24, O34 to O37. -/

namespace Sys2Proof.Machine

/-! Bit fields. -/

theorem topBitBelow_eq_some {w : Word} {n k : Nat} (hk : k < n) (hbit : w.getLsbD k = true)
    (hclear : ∀ j, k < j → j < n → w.getLsbD j = false) : topBitBelow w n = some k := by
  induction n with
  | zero => omega
  | succ n ih =>
    rw [topBitBelow]
    by_cases hkn : k = n
    · rw [← hkn, if_pos hbit]
    · have hlt : k < n := by omega
      rw [if_neg (by rw [hclear n hlt (Nat.lt_succ_self n)]; nofun)]
      exact ih hlt fun j h1 h2 => hclear j h1 (by omega)

theorem scanBit_zero : scanBit 0 = (0xFFFFFFFF, 0) := by decide

theorem scanBit_of_top {w : Word} {k : Nat} (hk : k < 32) (hbit : w.getLsbD k = true)
    (hclear : ∀ j, k < j → j < 32 → w.getLsbD j = false) : scanBit w = (BitVec.ofNat 32 k, 2) := by
  rw [scanBit, topBitBelow_eq_some hk hbit hclear]
  rfl

/-- The mask of the low bits. -/
theorem lowMask_getLsbD {l : Nat} (hl : l < 32) (j : Nat) :
    ((1#32 <<< l) - 1).getLsbD j = decide (j < l) := by
  have hpow : 2 ^ l < 2 ^ 32 := Nat.pow_lt_pow_right (by decide) hl
  have hone : (1#32 <<< l).toNat = 2 ^ l := by
    rw [BitVec.toNat_shiftLeft, Nat.shiftLeft_eq]
    exact (congrArg (· % 2 ^ 32) (Nat.one_mul _)).trans (Nat.mod_eq_of_lt hpow)
  have hmask : ((1#32 <<< l) - 1).toNat = 2 ^ l - 1 := by
    have hpos := Nat.two_pow_pos l
    have h1 : (1 : Word).toNat = 1 := rfl
    rw [BitVec.toNat_sub, hone, h1]
    omega
  rw [BitVec.getLsbD, hmask, Nat.testBit_two_pow_sub_one]

theorem extractField_getLsbD (pos len v : Word) (j : Nat) : (extractField pos len v).getLsbD j =
    (decide (j < len.toNat % 32) && v.getLsbD (pos.toNat % 32 + j)) := by
  rw [extractField, BitVec.getLsbD_and, lowMask_getLsbD (Nat.mod_lt _ (by decide)),
    BitVec.getLsbD_ushiftRight, Bool.and_comm]

theorem underMask_getLsbD (mask src old : Word) (j : Nat) : (underMask mask src old).getLsbD j =
    if mask.getLsbD j then src.getLsbD j else old.getLsbD j := by
  have hout (v : Word) (hj : ¬j < 32) : v.getLsbD j = false := BitVec.getLsbD_of_ge v j (by omega)
  rw [underMask, BitVec.getLsbD_or, BitVec.getLsbD_and, BitVec.getLsbD_and, BitVec.getLsbD_not]
  by_cases hj : j < 32
  · cases mask.getLsbD j <;> simp [hj]
  · simp [hout _ hj]

/-- Settles O24. -/
theorem fieldResults : Obligations.FieldResults := by
  intro src1 src2 dst n s h x y
  refine ⟨fun hu => ⟨fun hx => ?none, fun k hk hb hc => ?scan, fun hx => ?full, fun k hk hb hc => ?span⟩,
    fun hu => ⟨⟨extractField x y (s.getReg n), ?extract, extractField_getLsbD x y _⟩,
      ⟨underMask x y (s.getReg n), ?modify, underMask_getLsbD x y _⟩⟩⟩ <;> unfold exec
  case extract => exact updateForm_untraced h hu _
  case modify => exact updateForm_untraced h hu _
  all_goals refine (unaryCodeForm_untraced h hu _).trans ?_
  case none =>
    rw [show s.value (srcOperand src1) 0 = 0 from hx, scanBit_zero]
  case scan =>
    have hscan : scanBit (s.value (srcOperand src1) 0) = _ := scanBit_of_top hk hb fun j h1 _ => hc j h1
    rw [hscan]
  case full =>
    have hspan : spanBit (s.value (srcOperand src1) 0) = (0xFFFFFFFF, 0) := by
      rw [show s.value (srcOperand src1) 0 = 0xFFFFFFFF from hx]
      decide
    rw [hspan]
  case span =>
    have hnot (j : Nat) (hj : j < 32) : (~~~x).getLsbD j = !x.getLsbD j := by
      rw [BitVec.getLsbD_not, decide_eq_true hj, Bool.true_and]
    have hspan : spanBit (s.value (srcOperand src1) 0) = _ := scanBit_of_top (w := ~~~x) hk
      (by rw [hnot k hk, hb]; rfl) fun j h1 h2 => by rw [hnot j h2, hc j h1 h2]; rfl
    rw [hspan]

/-! Comparisons. -/

theorem compareOrdinal_eq_ite (x y : Word) : compareOrdinal x y =
    if x.toNat < y.toNat then 4 else if x.toNat = y.toNat then 2 else 1 := by
  simp only [compareOrdinal, compareCode, decide_eq_true_eq, beq_iff_eq, BitVec.toNat_inj]

theorem compareInteger_eq_ite (x y : Word) : compareInteger x y =
    if x.toInt < y.toInt then 4 else if x.toInt = y.toInt then 2 else 1 := by
  simp only [compareInteger, compareCode, decide_eq_true_eq, beq_iff_eq, BitVec.toInt_inj]

theorem conditionalCode_eq_ite (cc : BitVec 3) (p : Prop) [Decidable p] :
    conditionalCode cc (decide p) = if cc.getLsbD 2 then cc else if p then 2 else 1 := by
  simp only [conditionalCode, decide_eq_true_eq]

/-- Settles O34. -/
theorem compareResults : Obligations.CompareResults := by
  intro src1 src2 dst s h x y co ci
  have hco : compareOrdinal x y = co := compareOrdinal_eq_ite x y
  have hci : compareInteger x y = ci := compareInteger_eq_ite x y
  refine ⟨fun hu => ⟨?cmpo, ?cmpi, ?concmpo, ?concmpi⟩, fun hu => ⟨?inco, ?inci, ?deco, ?deci⟩⟩ <;>
    unfold exec
  case cmpo => rw [← hco]; exact codeForm_untraced h hu _
  case cmpi => rw [← hci]; exact codeForm_untraced h hu _
  case concmpo => rw [← conditionalCode_eq_ite]; exact codeForm_untraced h hu _
  case concmpi => rw [← conditionalCode_eq_ite]; exact codeForm_untraced h hu _
  case inco => rw [← hco]; exact compareStepForm_untraced h hu _ _
  case inci => rw [← hci]; exact compareStepForm_untraced h hu _ _
  case deco => rw [← hco]; exact compareStepForm_untraced h hu _ _
  case deci => rw [← hci]; exact compareStepForm_untraced h hu _ _

/-! Tests and conditional faults. -/

theorem State.canUseAll_reg (s : State) (n : RegNum) : s.canUseAll [(Operand.reg n).one] = true := by
  simp [State.canUseAll, State.canUse, Operand.one, Nat.mod_one]

theorem testForm_untraced {s : State} (h : s.untraced = true) (n : RegNum) (mask : BitVec 3) :
    testForm s (.reg n) mask =
      .next ((s.advance 4).setReg n (if conditionHolds mask s.cc then 1 else 0)) := by
  have hn0 : n + BitVec.ofNat 5 0 = n := BitVec.add_zero n
  refine (runChecked_modify h (s.canUseAll_reg n) 4 _).trans ?_
  simp only [updOperand, State.putValue, hn0]

theorem conditionFaultForm_untraced {s : State} (h : s.untraced = true) (mask : BitVec 3) :
    conditionFaultForm s mask = if conditionHolds mask s.cc then
      takeFault s (s.advance 4) .constraintRange (s.ip + 4) else .next (s.advance 4) := by
  have hm := (s.untraced_iff.1 h).1
  rw [conditionFaultForm]
  split
  · exact runInstr_untraced_fault h
      (r := ⟨s.advance 4, s.tc, s.te, 0, some .constraintRange, none⟩) rfl hm BitVec.zero_and rfl rfl
  · exact runInstr_untraced h (r := ⟨s.advance 4, s.tc, s.te, 0, none, none⟩) rfl hm BitVec.zero_and
      rfl rfl

/-- A mask that is not 000b tests for a common bit (`10_state.md` R42). -/
theorem conditionHolds_of_ne {mask : BitVec 3} (hm : mask ≠ 0) (cc : BitVec 3) :
    conditionHolds mask cc = (cc &&& mask != 0) := by
  rw [conditionHolds, if_neg hm, BitVec.and_comm]

/-- The mask 111b tests for any bit. -/
theorem conditionHolds_any : ∀ cc : BitVec 3, conditionHolds 7 cc = (cc != 0) := by decide

/-- Settles O35. -/
theorem conditionResults : Obligations.ConditionResults := by
  intro n s h ends raises
  have htest (mask : BitVec 3) : testForm s (.reg n) mask = ends (conditionHolds mask s.cc) :=
    testForm_untraced h n mask
  have hfault (mask : BitVec 3) : conditionFaultForm s mask = raises (conditionHolds mask s.cc) :=
    conditionFaultForm_untraced h mask
  have hmask {mask : BitVec 3} (hm : mask ≠ 0) := conditionHolds_of_ne hm s.cc
  have hany := conditionHolds_any s.cc
  refine ⟨htest 0, hfault 0, ?_, ?_, ?_, ?_, ?_, ?_, ?_, ?_, ?_, ?_, ?_, ?_, ?_, ?_⟩ <;> unfold exec
  · rw [← hmask (by decide)]; exact htest 1
  · rw [← hmask (by decide)]; exact hfault 1
  · rw [← hmask (by decide)]; exact htest 2
  · rw [← hmask (by decide)]; exact hfault 2
  · rw [← hmask (by decide)]; exact htest 3
  · rw [← hmask (by decide)]; exact hfault 3
  · rw [← hmask (by decide)]; exact htest 4
  · rw [← hmask (by decide)]; exact hfault 4
  · rw [← hmask (by decide)]; exact htest 5
  · rw [← hmask (by decide)]; exact hfault 5
  · rw [← hmask (by decide)]; exact htest 6
  · rw [← hmask (by decide)]; exact hfault 6
  · rw [← hany]; exact htest 7
  · rw [← hany]; exact hfault 7

/-! Branches. -/

theorem ctrlOffset_eq_ofInt (d : BitVec 22) : ctrlOffset d = BitVec.ofInt 32 (4 * d.toInt) := by
  rw [← ctrlOffset_toInt, BitVec.ofInt_toInt]

theorem cobrOffset_eq_ofInt (d : BitVec 11) : cobrOffset d = BitVec.ofInt 32 (4 * d.toInt) := by
  have htoInt : (cobrOffset d).toInt = 4 * d.toInt := by
    rw [cobrOffset, BitVec.toInt_signExtend_of_le (by decide), BitVec.toInt_append_zero]
    rfl
  rw [← htoInt, BitVec.ofInt_toInt]

theorem conditionBranchForm_untraced {s : State} (h : s.untraced = true) (mask : BitVec 3)
    (d : BitVec 22) : conditionBranchForm s mask d =
      .next (if conditionHolds mask s.cc then s.goTo (s.ip + ctrlOffset d) else s.advance 4) :=
  (runChecked_nil s 4 _).symm.trans
    (runChecked_modify_branchIf h (us := []) rfl 4 id (conditionHolds mask s.cc) _)

/-- With tracing off a link leaves the frame unmarked. -/
theorem Run.link_untraced {r : Run} (h : r.modes &&& 0xFE = 0) : r.link = r := by
  rw [Run.link, mode_bit_off h (by decide)]
  rfl

/-- A link and a jump: the link register, then the target. -/
theorem runChecked_link_untraced {s : State} (h : s.untraced = true) {us : List Use}
    (hu : s.canUseAll us = true) (len : Word) (n : RegNum) (v target : Word) :
    runChecked s len us (fun r => .ok (((r.put (.reg n) 0 v).link).jump target)) =
      .next ((s.setReg n v).goTo target) := by
  have hm := (s.untraced_iff.1 h).1
  have hn0 : n + BitVec.ofNat 5 0 = n := BitVec.add_zero n
  have hgo : ((s.advance len).putValue (.reg n) 0 v).goTo target = (s.setReg n v).goTo target := by
    rw [State.putValue, hn0]
    unfold State.setReg
    split <;> rfl
  have hlink : (Run.put ⟨s.advance len, s.tc, s.te, 0, none, none⟩ (.reg n) 0 v).link =
      Run.put ⟨s.advance len, s.tc, s.te, 0, none, none⟩ (.reg n) 0 v := Run.link_untraced hm
  rw [runChecked_of_canUse hu, ← hgo]
  exact runInstr_untraced h
    (r := ⟨((s.advance len).putValue (.reg n) 0 v).goTo target, s.tc, s.te, 0, none, none⟩)
    (congrArg (fun r : Run => Except.ok (r.jump target)) hlink) hm BitVec.zero_and rfl rfl

/-- Settles O36. -/
theorem branchResults : Obligations.BranchResults := by
  intro d p efa dst s h target far ends
  have htarget : s.ip + ctrlOffset d = target := by rw [ctrlOffset_eq_ofInt]
  have hcond (mask : BitVec 3) : conditionBranchForm s mask d = ends (conditionHolds mask s.cc) := by
    rw [conditionBranchForm_untraced h, htarget]
  have hmask {mask : BitVec 3} (hm : mask ≠ 0) := conditionHolds_of_ne hm s.cc
  have hany := conditionHolds_any s.cc
  refine ⟨?b, exec_bx_untraced h efa, hcond 0, ?g, ?e, ?ge, ?l, ?ne, ?le, ?o, ?bal, ?balx⟩
  case b => rw [exec_b_untraced h, htarget]; rfl
  all_goals unfold exec
  case g => rw [← hmask (by decide)]; exact hcond 1
  case e => rw [← hmask (by decide)]; exact hcond 2
  case ge => rw [← hmask (by decide)]; exact hcond 3
  case l => rw [← hmask (by decide)]; exact hcond 4
  case ne => rw [← hmask (by decide)]; exact hcond 5
  case le => rw [← hmask (by decide)]; exact hcond 6
  case o => rw [← hany]; exact hcond 7
  case bal =>
    rw [← htarget]
    exact (runChecked_nil s 4 _).symm.trans (runChecked_link_untraced h (us := []) rfl 4 30 _ _)
  case balx => exact runChecked_link_untraced h (s.canUseAll_reg dst) efa.len dst _ _

/-! Compare and branch. -/

/-- A comparison code has a bit under the mask where its relation holds (R371). -/
theorem mask_compareCode (mask : BitVec 3) (l e : Bool) : ((mask &&& compareCode l e) != 0) =
    if l then mask.getLsbD 2 else if e then mask.getLsbD 1 else mask.getLsbD 0 := by
  have hall : ∀ (l e : Bool) (mask : BitVec 3), ((mask &&& compareCode l e) != 0) =
    if l then mask.getLsbD 2 else if e then mask.getLsbD 1 else mask.getLsbD 0 := by decide
  exact hall l e mask

theorem mask_compareOrdinal (mask : BitVec 3) (x y : Word) :
    ((mask &&& compareOrdinal x y) != 0) = true ↔
      x.toNat < y.toNat ∧ mask.getLsbD 2 = true ∨ x.toNat = y.toNat ∧ mask.getLsbD 1 = true ∨
        y.toNat < x.toNat ∧ mask.getLsbD 0 = true := by
  rw [compareOrdinal, mask_compareCode]
  simp only [decide_eq_true_eq, beq_iff_eq, ← BitVec.toNat_inj]
  rcases Nat.lt_trichotomy x.toNat y.toNat with hl | he | hg
  · simp only [hl, hl.ne, hl.not_gt, if_true, true_and, false_and, or_false]
  · simp only [he, lt_irrefl, if_true, if_false, true_and, false_and, false_or, or_false]
  · simp only [hg, hg.ne', hg.not_gt, if_false, true_and, false_and, false_or]

theorem mask_compareInteger (mask : BitVec 3) (x y : Word) :
    ((mask &&& compareInteger x y) != 0) = true ↔
      x.toInt < y.toInt ∧ mask.getLsbD 2 = true ∨ x.toInt = y.toInt ∧ mask.getLsbD 1 = true ∨
        y.toInt < x.toInt ∧ mask.getLsbD 0 = true := by
  rw [compareInteger, mask_compareCode]
  simp only [decide_eq_true_eq, beq_iff_eq, ← BitVec.toInt_inj]
  rcases Int.lt_trichotomy x.toInt y.toInt with hl | he | hg
  · simp only [hl, hl.ne, hl.not_gt, if_true, true_and, false_and, or_false]
  · simp only [he, lt_irrefl, if_true, if_false, true_and, false_and, false_or, or_false]
  · simp only [hg, hg.ne', hg.not_gt, if_false, true_and, false_and, false_or]

section
variable {s : State} (h : s.untraced = true) {src1 : CSrc1} {src2 : CSrc2}
  (hu : s.canUseAll [(csrc1Operand src1).one, (csrc2Operand src2).one] = true)

include h hu

/-- A compare and branch, with its code and the relation on which it branches. -/
theorem compareBranchForm_untraced {d : BitVec 11} {cmp : Word → Word → BitVec 3} {mask c : BitVec 3}
    {p : Prop} [Decidable p]
    (hc : cmp (s.value (csrc1Operand src1) 0) (s.value (csrc2Operand src2) 0) = c)
    (hp : ((mask &&& c) != 0) = true ↔ p) :
    compareBranchForm s src1 src2 d cmp mask =
      .next (if p then (s.setCc c).goTo (s.ip + BitVec.ofInt 32 (4 * d.toInt))
        else (s.setCc c).advance 4) := by
  subst hc
  rw [← cobrOffset_eq_ofInt]
  refine (runChecked_modify_branchIf h hu 4 _ _ _).trans (congrArg Host.Outcome.next ?_)
  exact if_congr hp rfl rfl

theorem bitBranchForm_goTo (d : BitVec 11) (want : Bool) :
    bitBranchForm s src1 src2 d want =
      let c : BitVec 3 :=
        if bitAt (s.value (csrc1Operand src1) 0) (s.value (csrc2Operand src2) 0) = want then 2 else 0
      .next (if bitAt (s.value (csrc1Operand src1) 0) (s.value (csrc2Operand src2) 0) = want then
        (s.setCc c).goTo (s.ip + BitVec.ofInt 32 (4 * d.toInt)) else (s.setCc c).advance 4) := by
  rw [bitBranchForm_untraced h hu, ← cobrOffset_eq_ofInt]
  simp only [truthCode, beq_iff_eq]
  rfl

end

/-- Settles O37. The eight masks pick the relations out of the three codes. -/
theorem compareBranchResults : Obligations.CompareBranchResults := by
  intro src1 src2 d p s h hu x y co ci bit target ends
  have hco : compareOrdinal x y = co := compareOrdinal_eq_ite x y
  have hci : compareInteger x y = ci := compareInteger_eq_ite x y
  have hord (mask : BitVec 3) := mask_compareOrdinal mask x y
  have hint (mask : BitVec 3) := mask_compareInteger mask x y
  rw [hco] at hord
  rw [hci] at hint
  have heq : x = y ↔ x.toNat = y.toNat := BitVec.toNat_inj.symm
  have heq' : x = y ↔ x.toInt = y.toInt := BitVec.toInt_inj.symm
  refine ⟨?og, ?oe, ?oge, ?ol, ?one, ?ole, ?ino, ?ig, ?ie, ?ige, ?il, ?ine, ?ile, ?io,
    bitBranchForm_goTo h hu d false, bitBranchForm_goTo h hu d true⟩ <;> unfold exec
  case og | oe | ol | one =>
    exact compareBranchForm_untraced h hu hco ((hord _).trans (by simp [heq]))
  case oge | ole => exact compareBranchForm_untraced h hu hco ((hord _).trans (by simp; omega))
  case ino | ig | ie | il | ine =>
    exact compareBranchForm_untraced h hu hci ((hint _).trans (by simp [heq']))
  case ige | ile | io =>
    exact compareBranchForm_untraced h hu hci ((hint _).trans (by simp; omega))

end Sys2Proof.Machine
end

section
/-! Memory: the byte order of reads and what is stored (O12, O13); loads and stores with tracing off
(O15 to O17), and where they fault (O19). -/

namespace Sys2Proof.Machine

/-! Byte order (`20_memory.md` R103, R104, R144). -/

/-- The bytes of a word in a little-endian region. -/
theorem wordOfMem_little (b : Fin 4 → Byte) (k : Fin 4) :
    (wordOfMem false (b 0) (b 1) (b 2) (b 3)).extractLsb' (8 * k.val) 8 = b k := by
  refine BitVec.eq_of_getLsbD_eq fun i hi => ?_
  simp only [wordOfMem, Bool.false_eq_true, if_false, BitVec.getLsbD_extractLsb', hi, decide_true,
    Bool.true_and, BitVec.getLsbD_append]
  fin_cases k
  · simp [hi]
  · simp [show ¬8 + i < 8 by omega, hi]
  · simp [show ¬16 + i < 8 by omega, show ¬16 + i - 8 < 8 by omega, show 16 + i - 8 - 8 = i by omega, hi]
  · simp [show ¬24 + i < 8 by omega, show ¬24 + i - 8 < 8 by omega, show ¬24 + i - 8 - 8 < 8 by omega,
      show 24 + i - 8 - 8 - 8 = i by omega]

/-- A word in a big-endian region is the little-endian word of the bytes in the other order. -/
theorem wordOfMem_swap (b0 b1 b2 b3 : Byte) :
    wordOfMem true b0 b1 b2 b3 = wordOfMem false b3 b2 b1 b0 := rfl

theorem wordOfMem_big (b : Fin 4 → Byte) (k : Fin 4) :
    (wordOfMem true (b 0) (b 1) (b 2) (b 3)).extractLsb' (24 - 8 * k.val) 8 = b k := by
  have hk : 24 - 8 * k.val = 8 * (Fin.rev k).val := by rw [Fin.val_rev]; omega
  have hswap := wordOfMem_little (fun j => b (Fin.rev j)) (Fin.rev k)
  rw [Fin.rev_rev] at hswap
  rw [hk, wordOfMem_swap]
  exact hswap

theorem halfOfBytes_little (b0 b1 : Byte) :
    (halfOfBytes false b0 b1).extractLsb' 0 8 = b0 ∧ (halfOfBytes false b0 b1).extractLsb' 8 8 = b1 := by
  constructor <;> refine BitVec.eq_of_getLsbD_eq fun i hi => ?_ <;>
    simp only [halfOfBytes, Bool.false_eq_true, if_false, BitVec.getLsbD_extractLsb', hi, decide_true,
      Bool.true_and, BitVec.getLsbD_append]
  · simp [hi]
  · simp

theorem halfOfBytes_swap (b0 b1 : Byte) : halfOfBytes true b0 b1 = halfOfBytes false b1 b0 := rfl

/-- Only bit 22 of the region table decides the byte order. -/
theorem State.bigEndian_of_mcon {s : State} {m : Vector Word 16}
    (h : ∀ k : Fin 16, (m.get k).getLsbD 22 = (s.ctrl.mcon.get k).getLsbD 22) (a : Word) :
    ({ s with ctrl := { s.ctrl with mcon := m } } : State).bigEndian a = s.bigEndian a := by
  unfold State.bigEndian State.regionEntry
  dsimp only
  split
  · exact h _
  · exact h 0

/-- Settles O12. -/
theorem byteOrderOfReads : Obligations.ByteOrderOfReads := by
  intro s a
  have hword (be : Bool) (hb : s.bigEndian a = be) : s.readWord a =
      wordOfMem be (s.readByte (a + BitVec.ofNat 32 (0 : Fin 4).val))
        (s.readByte (a + BitVec.ofNat 32 (1 : Fin 4).val))
        (s.readByte (a + BitVec.ofNat 32 (2 : Fin 4).val))
        (s.readByte (a + BitVec.ofNat 32 (3 : Fin 4).val)) := by
    rw [State.readWord_eq, hb, show a + BitVec.ofNat 32 (0 : Fin 4).val = a from BitVec.add_zero a]
    rfl
  have hzero : a + BitVec.ofNat 32 0 = a := BitVec.add_zero a
  refine ⟨fun hc => ?_, fun hc => ?_, fun k hk hb => ?_, fun k hk hb => ?_, fun k hk hb => ?_,
    fun k hk hb => ?_, fun m hm => ?_, rfl, fun first prcb => ?_⟩
  · rw [State.bigEndian, State.regionEntry, hc, if_pos rfl]
  · rw [State.bigEndian, State.regionEntry, hc, if_neg Bool.false_ne_true]
  · rw [hword _ hb]
    exact wordOfMem_little (fun j => s.readByte (a + BitVec.ofNat 32 j.val)) ⟨k, hk⟩
  · rw [hword _ hb]
    exact wordOfMem_big (fun j => s.readByte (a + BitVec.ofNat 32 j.val)) ⟨k, hk⟩
  · rw [State.readHalf, hb]
    obtain rfl | rfl : k = 0 ∨ k = 1 := by omega
    · rw [hzero]; exact (halfOfBytes_little _ _).1
    · exact (halfOfBytes_little _ _).2
  · rw [State.readHalf, hb, halfOfBytes_swap]
    obtain rfl | rfl : k = 0 ∨ k = 1 := by omega
    · rw [hzero]; exact (halfOfBytes_little _ _).2
    · exact (halfOfBytes_little _ _).1
  · have hbe := State.bigEndian_of_mcon hm a
    exact ⟨rfl, by rw [State.readHalf, hbe]; rfl, by rw [State.readWord, hbe]; rfl⟩
  · obtain ⟨-, -, -, -, -, -, -, -, -, -, -, -, -, -, -, -, -, hctv, -⟩ :=
      s.initialize_cases .reinitialize (prcbBoot first prcb s.draws)
    exact hctv

/-! What is stored. -/

theorem bytesOfWord_getElem (be : Bool) (v : Word) (k : Nat) (hk : k < 4) :
    (bytesOfWord be v)[k]'(by rwa [bytesOfWord_length]) =
      v.extractLsb' (if be then 24 - 8 * k else 8 * k) 8 := by
  cases be <;> interval_cases k <;> rfl

/-- Settles O13. -/
theorem wordStored : Obligations.WordStored := by
  intro s a v hw
  have hlen := bytesOfWord_length (s.bigEndian a) v
  refine ⟨fun k hk => ?_, fun b hb => ?_, State.readWord_writeWord_same hw a v⟩
  · rw [← bytesOfWord_getElem _ _ k hk]
    exact State.readByte_writeBytes_inside hw (by omega) (by omega)
  · exact State.readByte_writeBytes_outside hw (by omega)

theorem State.bytesOf_length (s : State) (a : Word) (ws : List Word) :
    (s.bytesOf a ws).length = 4 * ws.length := by
  induction ws generalizing a with
  | nil => rfl
  | cons w ws ih =>
    rw [State.bytesOf, List.length_append, bytesOfWord_length, ih, List.length_cons]
    omega

/-- Bytes outside the words written read as before. -/
theorem State.readByte_writeWords_outside {s : State} (h : s.mem.wf = true) {a x : Word}
    {ws : List Word} (hx : 4 * ws.length ≤ (x - a).toNat) :
    (s.writeWords a ws).readByte x = s.readByte x := by
  rw [← State.writeBytes_bytesOf]
  exact State.readByte_writeBytes_outside h (by rwa [State.bytesOf_length])

/-- A word is read from its four bytes, in the byte order of its region. -/
theorem State.readWord_of_bytes {s t : State} (hc : t.ctrl = s.ctrl) {a : Word}
    (h : ∀ j < 4, t.readByte (a + BitVec.ofNat 32 j) = s.readByte (a + BitVec.ofNat 32 j)) :
    t.readWord a = s.readWord a := by
  have h0 := h 0 (by omega)
  rw [show a + BitVec.ofNat 32 0 = a from BitVec.add_zero a] at h0
  simp only [State.readWord_eq, State.bigEndian_congr hc, h0]
  exact congr (congrArg₂ _ (h 1 (by omega)) (h 2 (by omega))) (h 3 (by omega))

/-- Words written at rising addresses are read back, as long as they do not run around the address
space. -/
theorem State.readWord_writeWords_inside {s : State} (h : s.mem.wf = true) {a : Word}
    {ws : List Word} (hl : 4 * ws.length ≤ 2 ^ 32) {k : Nat} (hk : k < ws.length) :
    (s.writeWords a ws).readWord (a + BitVec.ofNat 32 (4 * k)) = ws[k] := by
  induction ws generalizing s a k with
  | nil => exact absurd hk (Nat.not_lt_zero k)
  | cons w ws ih =>
    have hw := State.writeWord_wf h a w
    rw [List.length_cons] at hl hk
    rw [State.writeWords]
    cases k with
    | zero =>
      have hkeep (j : Nat) (hj : j < 4) : ((s.writeWord a w).writeWords (a + 4) ws).readByte
          (a + BitVec.ofNat 32 j) = (s.writeWord a w).readByte (a + BitVec.ofNat 32 j) := by
        refine State.readByte_writeWords_outside hw ?_
        have hsub : a + BitVec.ofNat 32 j - (a + 4) = BitVec.ofNat 32 j - 4 := by bv_omega
        have hfour : (4 : Word).toNat = 4 := rfl
        rw [hsub, BitVec.toNat_sub, BitVec.toNat_ofNat, hfour]
        omega
      have hzero : a + BitVec.ofNat 32 (4 * 0) = a := BitVec.add_zero a
      have hread : ((s.writeWord a w).writeWords (a + 4) ws).readWord a = (s.writeWord a w).readWord a :=
        State.readWord_of_bytes (by simp) hkeep
      rw [hzero, hread]
      exact State.readWord_writeWord_same h a w
    | succ k =>
      have haddr : a + BitVec.ofNat 32 (4 * (k + 1)) = a + 4 + BitVec.ofNat 32 (4 * k) := by
        rw [Nat.mul_add, Nat.add_comm, BitVec.ofNat_add, ← BitVec.add_assoc]
        rfl
      rw [haddr, List.getElem_cons_succ]
      exact ih hw (by omega) (by omega)

/-! Accesses with tracing off. -/

theorem State.canStore_iff {s : State} {a : Word} {n : Nat} : s.canStore a n = true ↔
    s.canAccess a n = true ∧ (s.em = true ∨ s.protectedRange a n = false) := by
  simp only [State.canStore, Bool.and_eq_true, Bool.or_eq_true, Bool.not_eq_true']

theorem State.canUseAll_group (s : State) {n : RegNum} {wd al : Nat} (hn : n.toNat % al = 0) :
    s.canUseAll [⟨.reg n, wd, al⟩] = true := by simp [State.canUseAll, State.canUse, hn]

/-- A single byte is always at its boundary. -/
theorem State.canAccess_one (s : State) (a : Word) : s.canAccess a 1 = true := by
  simp [State.canAccess, naturalBoundary, Nat.mod_one]

theorem State.whole_one (s : State) (a : Word) : s.whole a 1 = true := by
  simp [State.whole, naturalBoundary, Nat.mod_one]

section
variable {s : State} (h : s.untraced = true) {efa : Efa} {n : RegNum} {k : Nat}

include h

/-- A load or a store whose access neither faults nor stops is what follows its checks. -/
theorem runChecked_access_untraced {us : List Use} (hu : s.canUseAll us = true) {len a : Word}
    {k : Nat} {kind : AccessKind} (ha : s.canAccess a k = true)
    (hp : kind = .store → s.em = true ∨ s.protectedRange a k = false) (f : Run → Except Stop Run) :
    runChecked s len us (fun r => r.access a k kind >>= f) = runChecked s len us f := by
  have hacc : Run.access ⟨s.advance len, s.tc, s.te, 0, none, none⟩ a k kind =
      .ok ⟨s.advance len, s.tc, s.te, 0, none, none⟩ := by
    rw [Run.access_ok (r := ⟨s.advance len, s.tc, s.te, 0, none, none⟩) ha hp,
      State.dataBreak_off _ (s.untraced_iff.1 h).1, Run.note]
    exact congrArg (fun w => Except.ok (⟨s.advance len, s.tc, s.te, w, none, none⟩ : Run))
      BitVec.or_zero
  rw [runChecked_of_canUse hu, runChecked_of_canUse hu, runInstr, runInstr, State.begin_untraced h, hacc]
  rfl

theorem loadForm_untraced (v : Bool → List Byte → Word)
    (ha : s.canAccess (s.address s.ip efa) k = true) :
    loadForm s efa n k v =
      .next (((s.readRequests (s.address s.ip efa) k 0 k).2.advance efa.len).setReg n
        (v (s.bigEndian (s.address s.ip efa)) (s.readRequests (s.address s.ip efa) k 0 k).1)) := by
  have hn0 : n + BitVec.ofNat 5 0 = n := BitVec.add_zero n
  refine (runChecked_access_untraced h (s.canUseAll_reg n) (kind := .load) ha nofun _).trans ?_
  refine (runChecked_modify h (s.canUseAll_reg n) efa.len fun t =>
    (t.readRequests (s.address s.ip efa) k 0 k).2.putValue (.reg n) 0
      (v (s.bigEndian (s.address s.ip efa)) (t.readRequests (s.address s.ip efa) k 0 k).1)).trans ?_
  simp only [State.readRequests_advance, State.putValue, hn0]

theorem loadForm_whole (v : Bool → List Byte → Word)
    (ha : s.canAccess (s.address s.ip efa) k = true) (hw : s.whole (s.address s.ip efa) k = true) :
    loadForm s efa n k v = .next ((s.advance efa.len).setReg n
      (v (s.bigEndian (s.address s.ip efa)) (s.readBytes (s.address s.ip efa) k))) := by
  rw [loadForm_untraced h v ha, State.readRequests_whole hw]
  simp only [show s.address s.ip efa + BitVec.ofNat 32 0 = s.address s.ip efa from BitVec.add_zero _]

theorem loadGroupForm_untraced {wd al : Nat} (hn : n.toNat % al = 0)
    (ha : s.canAccess (s.address s.ip efa) (4 * wd) = true) :
    loadGroupForm s efa n wd al =
      .next (((s.readRequests (s.address s.ip efa) (4 * wd) 0 (4 * wd)).2.advance efa.len).putWords
        (.reg n) 0 (s.wordsOf (s.address s.ip efa)
          (s.readRequests (s.address s.ip efa) (4 * wd) 0 (4 * wd)).1)) := by
  have hu := s.canUseAll_group (wd := wd) hn
  refine (runChecked_access_untraced h hu (kind := .load) ha nofun _).trans ?_
  simp only [Run.putAll_modify]
  refine (runChecked_modify h hu efa.len fun t =>
    (t.readRequests (s.address s.ip efa) (4 * wd) 0 (4 * wd)).2.putWords (.reg n) 0
      (s.wordsOf (s.address s.ip efa)
        (t.readRequests (s.address s.ip efa) (4 * wd) 0 (4 * wd)).1)).trans ?_
  simp only [State.readRequests_advance]

theorem storeForm_untraced (bytes : Bool → Word → List Byte)
    (ha : s.canStore (s.address s.ip efa) k = true) :
    storeForm s n efa k bytes = .next ((s.advance efa.len).writeRequests (s.address s.ip efa) k 0
      (bytes (s.bigEndian (s.address s.ip efa)) (s.getReg n))) := by
  obtain ⟨hacc, hp⟩ := State.canStore_iff.1 ha
  exact (runChecked_access_untraced h (s.canUseAll_reg n) hacc (fun _ => hp) _).trans
    (runChecked_modify h (s.canUseAll_reg n) efa.len _)

theorem storeGroupForm_untraced {wd al : Nat} (hn : n.toNat % al = 0)
    (ha : s.canStore (s.address s.ip efa) (4 * wd) = true) :
    storeGroupForm s n efa wd al =
      .next ((s.advance efa.len).writeRequests (s.address s.ip efa) (4 * wd) 0
        (s.bytesOf (s.address s.ip efa) ((List.range wd).map (s.value (.reg n))))) := by
  have hu := s.canUseAll_group (wd := wd) hn
  obtain ⟨hacc, hp⟩ := State.canStore_iff.1 ha
  exact (runChecked_access_untraced h hu hacc (fun _ => hp) _).trans (runChecked_modify h hu efa.len _)

/-- An integer store whose value fits, or whose overflow is masked, completes; else other agents have a
turn and the fault follows. -/
theorem storeIntegerForm_untraced (bytes : Bool → Word → List Byte) (fits : Word → Bool)
    (ha : s.canStore (s.address s.ip efa) k = true) {t : State}
    (ht : (s.advance efa.len).writeRequests (s.address s.ip efa) k 0
      (bytes (s.bigEndian (s.address s.ip efa)) (s.getReg n)) = t) :
    storeIntegerForm s n efa k bytes fits =
      if fits (s.getReg n) then .next t
      else if s.om then .next { t with ac := putBit s.ac 8 true }
      else takeFault s t.turn .integerOverflow (s.ip + efa.len) := by
  obtain ⟨hacc, hp⟩ := State.canStore_iff.1 ha
  have hm := (s.untraced_iff.1 h).1
  obtain ⟨m, ts, hw, -⟩ := (s.advance efa.len).writeRequests_eq (s.address s.ip efa) k 0
      (bytes (s.bigEndian (s.address s.ip efa)) (s.getReg n))
  have hac : t.ac = s.ac := by rw [← ht, hw]; rfl
  have hom : t.om = s.om := by rw [State.om, hac]; rfl
  have hip : t.turn.ip = s.ip + efa.len := by rw [State.turn_ip, ← ht, hw]; rfl
  refine (runChecked_access_untraced h (s.canUseAll_reg n) hacc (fun _ => hp) _).trans ?_
  rw [runChecked_of_canUse (s.canUseAll_reg n)]
  simp only [Run.modify, Run.overflow]
  cases hf : fits (s.getReg n) with
  | true =>
    refine (runInstr_untraced h (r := ⟨t, s.tc, s.te, 0, none, none⟩) ?_ hm BitVec.zero_and rfl rfl).trans
      (if_pos rfl).symm
    simp only [ht, Bool.not_true, Bool.false_eq_true, if_false, if_true]
  | false =>
    cases ho : s.om with
    | true =>
      refine runInstr_untraced h (r := ⟨{ t with ac := putBit s.ac 8 true }, s.tc, s.te, 0, none, none⟩)
        ?_ hm BitVec.zero_and rfl rfl
      simp only [ht, hom, ho, hac, Bool.not_false, if_true]
    | false =>
      rw [← hip]
      refine runInstr_untraced_fault h (r := ⟨t.turn, s.tc, s.te, 0, some .integerOverflow, none⟩)
        ?_ hm BitVec.zero_and rfl rfl
      simp only [ht, hom, ho, Bool.not_false, if_true, Bool.false_eq_true, if_false, reduceCtorEq]

end

/-! Loads and stores of one register (`40_data_movement.md` R220 to R226, R231 to R235). -/

/-- An unaligned access that does not stop is in a little-endian region. -/
theorem State.bigEndian_of_unaligned {s : State} {a : Word} {n : Nat}
    (ha : a.toNat % naturalBoundary n ≠ 0) (hacc : s.canAccess a n = true) : s.bigEndian a = false := by
  simp only [State.canAccess, Bool.or_eq_true, beq_iff_eq, ha, false_or, Bool.and_eq_true,
    Bool.not_eq_true'] at hacc
  exact hacc.2

/-- Each byte of an unaligned word but the first is a request of its own. -/
theorem startsRequest_word {a : Word} (ha : a.toNat % 4 ≠ 0) {k : Nat} (hk : k ≠ 0) (hk4 : k < 4) :
    startsRequest a 4 k = true := by
  have hb : a.toNat % naturalBoundary 4 ≠ 0 := ha
  simp only [startsRequest]
  rw [if_neg (fun hc => hc.elim hk hb), if_neg (by omega), if_neg (by omega)]

theorem startsRequest_half {a : Word} (ha : a.toNat % 2 ≠ 0) : startsRequest a 2 1 = true := by
  have hb : a.toNat % naturalBoundary 2 ≠ 0 := ha
  simp only [startsRequest]
  rw [if_neg (fun hc => hc.elim Nat.one_ne_zero hb), if_neg (by omega), if_neg (by omega)]

theorem startsRequest_zero (a : Word) (n : Nat) : startsRequest a n 0 = false := by
  simp [startsRequest]

theorem State.readRequests_unaligned_word (s : State) {a : Word} (ha : a.toNat % 4 ≠ 0) :
    s.readRequests a 4 0 4 = ([s.readByte a, s.turn.readByte (a + 1), s.turn.turn.readByte (a + 2),
      s.turn.turn.turn.readByte (a + 3)], s.turn.turn.turn) := by
  have h0 : a + BitVec.ofNat 32 0 = a := BitVec.add_zero a
  have h1 := startsRequest_word ha (k := 0 + 1) (by decide) (by decide)
  have h2 := startsRequest_word ha (k := 0 + 1 + 1) (by decide) (by decide)
  have h3 := startsRequest_word ha (k := 0 + 1 + 1 + 1) (by decide) (by decide)
  simp only [State.readRequests, startsRequest_zero, h1, h2, h3, h0, Bool.false_eq_true, if_false, if_true]
  rfl

theorem State.readRequests_unaligned_half (s : State) {a : Word} (ha : a.toNat % 2 ≠ 0) :
    s.readRequests a 2 0 2 = ([s.readByte a, s.turn.readByte (a + 1)], s.turn) := by
  have h0 : a + BitVec.ofNat 32 0 = a := BitVec.add_zero a
  simp only [State.readRequests, startsRequest_zero, startsRequest_half ha, h0, Bool.false_eq_true,
    if_false, if_true, Nat.zero_add]
  rfl

theorem State.writeRequests_unaligned_word (s : State) {a : Word} (ha : a.toNat % 4 ≠ 0)
    (b0 b1 b2 b3 : Byte) : s.writeRequests a 4 0 [b0, b1, b2, b3] =
      (((s.writeByte a b0).turn.writeByte (a + 1) b1).turn.writeByte (a + 2) b2).turn.writeByte
        (a + 3) b3 := by
  have h0 : a + BitVec.ofNat 32 0 = a := BitVec.add_zero a
  have h1 := startsRequest_word ha (k := 0 + 1) (by decide) (by decide)
  have h2 := startsRequest_word ha (k := 0 + 1 + 1) (by decide) (by decide)
  have h3 := startsRequest_word ha (k := 0 + 1 + 1 + 1) (by decide) (by decide)
  simp only [State.writeRequests, startsRequest_zero, h1, h2, h3, h0, Bool.false_eq_true, if_false, if_true]
  rfl

theorem State.writeRequests_unaligned_half (s : State) {a : Word} (ha : a.toNat % 2 ≠ 0)
    (b0 b1 : Byte) : s.writeRequests a 2 0 [b0, b1] = (s.writeByte a b0).turn.writeByte (a + 1) b1 := by
  have h0 : a + BitVec.ofNat 32 0 = a := BitVec.add_zero a
  simp only [State.writeRequests, startsRequest_zero, startsRequest_half ha, h0, Bool.false_eq_true,
    if_false, if_true, Nat.zero_add]
  rfl

theorem State.wordOf_readBytes (s : State) (a : Word) :
    wordOf (s.bigEndian a) (s.readBytes a 4) = s.readWord a := by
  have h2 : a + 1 + 1 = a + 2 := BitVec.add_assoc a 1 1
  have h3 : a + 2 + 1 = a + 3 := BitVec.add_assoc a 2 1
  simp only [State.readBytes, wordOf, h2, h3]
  rfl

theorem State.writeRequests_at {s : State} {a : Word} {n : Nat} (h : s.whole a n = true)
    (bs : List Byte) : s.writeRequests a n 0 bs = s.writeBytes a bs := by
  rw [State.writeRequests_whole h, show a + BitVec.ofNat 32 0 = a from BitVec.add_zero a]

/-- Settles O15. -/
theorem loadResults : Obligations.LoadResults := by
  intro efa dst s h a u
  have hbyte := s.canAccess_one a
  refine ⟨fun ha hw => ?ld, ?ldob, ?ldib, fun ha hw => ⟨?ldos, ?ldis⟩, ?lda, fun hu ha => ?ldTurns,
    fun hu ha => ⟨?ldosTurns, ?ldisTurns⟩⟩ <;> unfold exec
  case ld =>
    exact (loadForm_whole h wordOf ha hw).trans (by rw [State.wordOf_readBytes])
  case ldob => exact loadForm_whole h _ hbyte (s.whole_one a)
  case ldib => exact loadForm_whole h _ hbyte (s.whole_one a)
  case ldos => exact loadForm_whole h _ ha hw
  case ldis => exact loadForm_whole h _ ha hw
  case lda =>
    have hn0 : dst + BitVec.ofNat 5 0 = dst := BitVec.add_zero dst
    refine (runChecked_modify h (s.canUseAll_reg dst) efa.len fun t => t.putValue (.reg dst) 0 a).trans ?_
    rw [State.putValue, hn0]
  case ldTurns =>
    refine (loadForm_untraced h wordOf ha).trans ?_
    rw [s.readRequests_unaligned_word hu, State.bigEndian_of_unaligned hu ha]
    rfl
  case ldosTurns | ldisTurns =>
    refine (loadForm_untraced h _ ha).trans ?_
    rw [s.readRequests_unaligned_half hu, State.bigEndian_of_unaligned hu ha]
    rfl

theorem fitsByte_iff (v : Word) : fitsByte v = true ↔ -128 ≤ v.toInt ∧ v.toInt ≤ 127 := by
  rw [fitsByte, Bool.and_eq_true, decide_eq_true_iff, decide_eq_true_iff]

theorem fitsShort_iff (v : Word) : fitsShort v = true ↔ -32768 ≤ v.toInt ∧ v.toInt ≤ 32767 := by
  rw [fitsShort, Bool.and_eq_true, decide_eq_true_iff, decide_eq_true_iff]

theorem bytesOfHalf_truncate (v : Word) :
    bytesOfHalf false (v.truncate 16) = [v.extractLsb' (8 * 0) 8, v.extractLsb' (8 * 1) 8] := by
  have hlo : (v.truncate 16).extractLsb' 0 8 = v.extractLsb' 0 8 := by
    ext i hi
    simp [show i < 16 by omega]
  have hhi : (v.truncate 16).extractLsb' 8 8 = v.extractLsb' 8 8 := by
    ext i hi
    simp [show 8 + i < 16 by omega]
  simp only [bytesOfHalf, Bool.false_eq_true, if_false, hlo, hhi]

/-- Settles O16. -/
theorem storeResults : Obligations.StoreResults := by
  intro src efa s h a u v byte ends
  have hends (t : State) (fits : Bool) (p : Prop) [Decidable p] (hp : fits = true ↔ p) :
      (if fits = true then .next t
        else if s.om then .next { t with ac := putBit s.ac 8 true }
        else takeFault s t.turn .integerOverflow (s.ip + efa.len)) = ends t p := by
    simp only [hp, ends, putBit_of]
  have hone : u.writeRequests a 1 0 [v.truncate 8] = u.writeByte a (v.truncate 8) :=
    State.writeRequests_at (u.whole_one a) _
  have hhalf (hu : a.toNat % 2 ≠ 0) (ha : s.canStore a 2 = true) :
      u.writeRequests a 2 0 (bytesOfHalf (s.bigEndian a) (v.truncate 16)) =
        (u.writeByte a (byte 0)).turn.writeByte (a + 1) (byte 1) := by
    rw [State.bigEndian_of_unaligned hu (State.canStore_iff.1 ha).1, bytesOfHalf_truncate]
    exact u.writeRequests_unaligned_half hu _ _
  refine ⟨fun ha hw => ?st, fun ha => ?stob, fun ha hw => ?stos, fun ha => ?stib, fun ha hw => ?stis,
    fun hu ha => ?stTurns, fun hu ha => ⟨?stosTurns, ?stisTurns⟩⟩ <;> unfold exec
  case st =>
    exact (storeForm_untraced h bytesOfWord ha).trans
      (congrArg _ (State.writeRequests_at (s := u) hw _))
  case stob => exact (storeForm_untraced h _ ha).trans (congrArg _ hone)
  case stos =>
    exact (storeForm_untraced h _ ha).trans (congrArg _ (State.writeRequests_at (s := u) hw _))
  case stib =>
    exact (storeIntegerForm_untraced h _ fitsByte ha hone).trans (hends _ _ _ (fitsByte_iff v))
  case stis =>
    exact (storeIntegerForm_untraced h _ fitsShort ha (State.writeRequests_at (s := u) hw _)).trans
      (hends _ _ _ (fitsShort_iff v))
  case stTurns =>
    refine (storeForm_untraced h bytesOfWord ha).trans ?_
    rw [State.bigEndian_of_unaligned hu (State.canStore_iff.1 ha).1]
    exact congrArg _ (u.writeRequests_unaligned_word hu _ _ _ _)
  case stosTurns => exact (storeForm_untraced h _ ha).trans (congrArg _ (hhalf hu ha))
  case stisTurns =>
    exact (storeIntegerForm_untraced h _ fitsShort ha (hhalf hu ha)).trans
      (hends _ _ _ (fitsShort_iff v))

/-! Register groups (R227 to R229, R236 to R238). -/

theorem State.readRequests_length (s : State) (a : Word) (n k j : Nat) :
    (s.readRequests a n k j).1.length = j := by
  induction j generalizing s k with
  | zero => rfl
  | succ j ih => simp only [State.readRequests, List.length_cons, ih]

/-- Word k of bytes read from an address on is made of bytes 4k to 4k + 3. -/
theorem State.wordsOf_eq_map (s : State) (a : Word) {bs : List Byte} {w : Nat}
    (hl : bs.length = 4 * w) : s.wordsOf a bs = (List.range w).map fun k =>
      wordOfMem (s.bigEndian (a + BitVec.ofNat 32 (4 * k))) (bs.getD (4 * k) 0)
        (bs.getD (4 * k + 1) 0) (bs.getD (4 * k + 2) 0) (bs.getD (4 * k + 3) 0) := by
  induction w generalizing a bs with
  | zero => rw [List.length_eq_zero_iff.1 hl]; rfl
  | succ w ih =>
    match bs, hl with
    | b0 :: b1 :: b2 :: b3 :: bs, hl =>
      have hl' : bs.length = 4 * w := by simpa [Nat.mul_add] using hl
      have h0 : a + BitVec.ofNat 32 (4 * 0) = a := BitVec.add_zero a
      have hk (k : Nat) : a + 4 + BitVec.ofNat 32 (4 * k) = a + BitVec.ofNat 32 (4 * (k + 1)) := by
        rw [Nat.mul_add, Nat.add_comm (4 * k), BitVec.ofNat_add, ← BitVec.add_assoc]
        rfl
      rw [State.wordsOf, ih _ hl', List.range_succ_eq_map, List.map_cons, List.map_map, h0]
      simp only [hk]
      rfl

theorem State.putWords_reg_two (u : State) (n : RegNum) (x y : Word) :
    u.putWords (.reg n) 0 [x, y] = (u.setReg n x).setReg (n + 1) y := by
  have hn0 : n + BitVec.ofNat 5 0 = n := BitVec.add_zero n
  simp only [State.putWords, State.putValue, hn0]
  rfl

theorem State.putWords_reg_three (u : State) (n : RegNum) (x y z : Word) :
    u.putWords (.reg n) 0 [x, y, z] = ((u.setReg n x).setReg (n + 1) y).setReg (n + 2) z := by
  have hn0 : n + BitVec.ofNat 5 0 = n := BitVec.add_zero n
  simp only [State.putWords, State.putValue, hn0]
  rfl

theorem State.putWords_reg_four (u : State) (n : RegNum) (x y z w : Word) :
    u.putWords (.reg n) 0 [x, y, z, w] =
      (((u.setReg n x).setReg (n + 1) y).setReg (n + 2) z).setReg (n + 3) w := by
  have hn0 : n + BitVec.ofNat 5 0 = n := BitVec.add_zero n
  simp only [State.putWords, State.putValue, hn0]
  rfl

theorem State.readWords_eq_map (s : State) (a : Word) (w : Nat) :
    s.readWords a w = (List.range w).map fun k => s.readWord (a + BitVec.ofNat 32 (4 * k)) := by
  induction w generalizing a with
  | zero => rfl
  | succ w ih =>
    have h0 : a + BitVec.ofNat 32 (4 * 0) = a := BitVec.add_zero a
    have hk (k : Nat) : a + 4 + BitVec.ofNat 32 (4 * k) = a + BitVec.ofNat 32 (4 * (k + 1)) := by
      rw [Nat.mul_add, Nat.add_comm (4 * k), BitVec.ofNat_add, ← BitVec.add_assoc]
      rfl
    rw [State.readWords, ih, List.range_succ_eq_map, List.map_cons, List.map_map, h0]
    simp only [hk]
    rfl

/-- The bytes of words, word k in the byte order of the region of the address plus 4k. -/
theorem State.bytesOf_eq_flatMap (s : State) (a : Word) (g : Nat → Word) (w : Nat) :
    s.bytesOf a ((List.range w).map g) = (List.range w).flatMap fun k =>
      bytesOfWord (s.bigEndian (a + BitVec.ofNat 32 (4 * k))) (g k) := by
  induction w generalizing a g with
  | zero => rfl
  | succ w ih =>
    have h0 : a + BitVec.ofNat 32 (4 * 0) = a := BitVec.add_zero a
    have hk (k : Nat) : a + 4 + BitVec.ofNat 32 (4 * k) = a + BitVec.ofNat 32 (4 * (k + 1)) := by
      rw [Nat.mul_add, Nat.add_comm (4 * k), BitVec.ofNat_add, ← BitVec.add_assoc]
      rfl
    rw [List.range_succ_eq_map, List.map_cons, List.map_map, State.bytesOf, ih, List.flatMap_cons, h0,
      List.flatMap_map]
    simp only [hk]
    rfl

/-- Settles O17. -/
theorem groupResults : Obligations.GroupResults := by
  intro n efa s h a w r u
  have hwords (wd : Nat) : s.wordsOf a (s.readRequests a (4 * wd) 0 (4 * wd)).1 =
      (List.range wd).map fun k =>
        wordOfMem (s.bigEndian (a + BitVec.ofNat 32 (4 * k)))
          ((s.readRequests a (4 * wd) 0 (4 * wd)).1.getD (4 * k) 0)
          ((s.readRequests a (4 * wd) 0 (4 * wd)).1.getD (4 * k + 1) 0)
          ((s.readRequests a (4 * wd) 0 (4 * wd)).1.getD (4 * k + 2) 0)
          ((s.readRequests a (4 * wd) 0 (4 * wd)).1.getD (4 * k + 3) 0) :=
    s.wordsOf_eq_map a (s.readRequests_length a _ _ _)
  have hload (wd al : Nat) (hw : s.whole a (4 * wd) = true) (hn : n.toNat % al = 0)
      (ha : s.canAccess a (4 * wd) = true) :
      loadGroupForm s efa n wd al = .next (u.putWords (.reg n) 0 ((List.range wd).map w)) := by
    rw [loadGroupForm_untraced h hn ha, State.readRequests_whole hw,
      show s.address s.ip efa + BitVec.ofNat 32 0 = a from BitVec.add_zero _, State.wordsOf_readBytes,
      State.readWords_eq_map]
  have hbytes (wd : Nat) : s.bytesOf a ((List.range wd).map (s.value (.reg n))) =
      (List.range wd).flatMap fun k =>
        bytesOfWord (s.bigEndian (a + BitVec.ofNat 32 (4 * k))) (r k) := s.bytesOf_eq_flatMap a _ wd
  have hstore (wd al : Nat) (hw : s.whole a (4 * wd) = true) (hn : n.toNat % al = 0)
      (ha : s.canStore a (4 * wd) = true) :
      storeGroupForm s n efa wd al = .next (u.writeWords a ((List.range wd).map (s.value (.reg n)))) := by
    rw [storeGroupForm_untraced h hn ha]
    refine congrArg _ ((State.writeRequests_at (s := u) hw _).trans ?_)
    rw [← State.bytesOf_congr (t := u) (s := s) rfl, State.writeBytes_bytesOf]
  refine ⟨fun hw hn ha => ?ldl, fun hw hn ha => ?ldt, fun hw hn ha => ?ldq, fun hw hn ha => ?stl,
    fun hw hn ha => ?stt, fun hw hn ha => ?stq, fun hwf ws k hk hl => ?readBack, fun hn ha => ?ldlTurns,
    fun hn ha => ?ldtTurns, fun hn ha => ?ldqTurns, fun hn ha => ?stlTurns, fun hn ha => ?sttTurns,
    fun hn ha => ?stqTurns⟩
  case readBack => exact State.readWord_writeWords_inside (s := u) hwf (by omega) hk
  all_goals unfold exec
  case ldl => exact (hload 2 2 hw hn ha).trans (congrArg _ (u.putWords_reg_two n _ _))
  case ldt => exact (hload 3 4 hw hn ha).trans (congrArg _ (u.putWords_reg_three n _ _ _))
  case ldq => exact (hload 4 4 hw hn ha).trans (congrArg _ (u.putWords_reg_four n _ _ _ _))
  case stl => exact hstore 2 2 hw hn ha
  case stt => exact hstore 3 4 hw hn ha
  case stq => exact hstore 4 4 hw hn ha
  case ldlTurns =>
    refine (loadGroupForm_untraced h hn ha).trans (congrArg _ ?_)
    rw [hwords 2]
    exact State.putWords_reg_two _ n _ _
  case ldtTurns =>
    refine (loadGroupForm_untraced h hn ha).trans (congrArg _ ?_)
    rw [hwords 3]
    exact State.putWords_reg_three _ n _ _ _
  case ldqTurns =>
    refine (loadGroupForm_untraced h hn ha).trans (congrArg _ ?_)
    rw [hwords 4]
    exact State.putWords_reg_four _ n _ _ _ _
  case stlTurns =>
    refine (storeGroupForm_untraced h hn ha).trans (congrArg _ ?_)
    rw [hbytes 2]
    exact congrArg _ (by simp [List.range_succ])
  case sttTurns =>
    refine (storeGroupForm_untraced h hn ha).trans (congrArg _ ?_)
    rw [hbytes 3]
    exact congrArg _ (by simp [List.range_succ])
  case stqTurns =>
    refine (storeGroupForm_untraced h hn ha).trans (congrArg _ ?_)
    rw [hbytes 4]
    exact congrArg _ (by simp [List.range_succ])

/-! Where loads and stores fault or stop (`20_memory.md` R107 to R112). -/

/-- An operand check that fails is an early fault. -/
theorem runChecked_of_fault {s : State} {us : List Use} {c : FaultCode}
    (hc : s.operandFault us = some c) (len : Word) (body : Run → Except Stop Run) :
    runChecked s len us body = takeEarlyFault s c (s.ip + len) := by
  rw [runChecked, hc]

/-- What a body must report for its instruction to fault or stop with nothing written. -/
theorem runInstr_stop {s : State} {len : Word} {body : Run → Except Stop Run} {f : Fault}
    (hb : body (s.begin len) = .error (.fault f)) : runInstr s len body = .fault f := by
  rw [runInstr, hb]

theorem State.begin_s_config (s : State) (len : Word) : (s.begin len).s.config = s.config :=
  s.ageWindows_config

theorem State.begin_s_ctrl (s : State) (len : Word) : (s.begin len).s.ctrl = s.ctrl :=
  s.ageWindows_ctrl

theorem State.begin_s_pctl (s : State) (len : Word) : (s.begin len).s.pctl = s.pctl :=
  s.ageWindows_pctl

/-- A store in user mode to protected data RAM, whatever the trace modes. -/
theorem State.begin_access_protected (s : State) {len a : Word} {k : Nat} (ha : s.canAccess a k = true)
    (he : s.em = false) (hp : s.protectedRange a k = true) :
    (s.begin len).access a k .store = .error (.trap .typeMismatch) := by
  have hem : (s.begin len).s.em = false := by rw [State.em, s.begin_s_pctl]; exact he
  have hpr : (s.begin len).s.protectedRange a k = true := by
    simp only [State.protectedRange, State.protectedByte, s.begin_s_ctrl]
    exact hp
  simp only [State.canAccess, Bool.or_eq_true, beq_iff_eq, Bool.and_eq_true, Bool.not_eq_true'] at ha
  rw [Run.access, s.begin_s_config, State.bigEndian_congr (s.begin_s_ctrl _), if_neg, if_neg,
    if_pos ⟨rfl, hem, hpr⟩]
  · rintro ⟨hu, hb⟩
    rw [(ha.resolve_left hu).2] at hb
    exact Bool.false_ne_true hb
  · rintro ⟨hu, hf⟩
    rw [(ha.resolve_left hu).1] at hf
    exact Bool.false_ne_true hf

/-- An instruction whose body, after the check of its register group, begins with one access. -/
def StartsWithAccess (i : Instr) (s : State) (n : RegNum) (efa : Efa) (k al : Nat) (kind : AccessKind) :
    Prop :=
  ∃ wd f, exec i s = runChecked s efa.len [⟨.reg n, wd, al⟩] fun r =>
    r.access (s.address s.ip efa) k kind >>= f

theorem loads_access (n : RegNum) (efa : Efa) (s : State) :
    ∀ p ∈ [(Instr.ld efa n, 4, 1), (Instr.ldos efa n, 2, 1), (Instr.ldis efa n, 2, 1),
        (Instr.ldl efa n, 8, 2), (Instr.ldt efa n, 12, 4), (Instr.ldq efa n, 16, 4)],
      StartsWithAccess p.1 s n efa p.2.1 p.2.2 .load := by
  simp only [List.forall_mem_cons]
  refine ⟨?_, ?_, ?_, ?_, ?_, ?_, List.forall_mem_nil _⟩ <;> exact ⟨_, _, rfl⟩

theorem stores_access (n : RegNum) (efa : Efa) (s : State) :
    ∀ p ∈ [(Instr.st n efa, 4, 1), (Instr.stob n efa, 1, 1), (Instr.stos n efa, 2, 1),
        (Instr.stib n efa, 1, 1), (Instr.stis n efa, 2, 1), (Instr.stl n efa, 8, 2),
        (Instr.stt n efa, 12, 4), (Instr.stq n efa, 16, 4)],
      StartsWithAccess p.1 s n efa p.2.1 p.2.2 .store := by
  simp only [List.forall_mem_cons]
  refine ⟨?_, ?_, ?_, ?_, ?_, ?_, ?_, ?_, List.forall_mem_nil _⟩ <;> exact ⟨_, _, rfl⟩

section
variable {i : Instr} {s : State} {n : RegNum} {efa : Efa} {k al : Nat} {kind : AccessKind}

/-- A register group that is not aligned. -/
theorem StartsWithAccess.misaligned_group (hi : StartsWithAccess i s n efa k al kind) (hn : n.toNat % al ≠ 0) :
    exec i s = takeEarlyFault s .invalidOperand (s.ip + efa.len) := by
  obtain ⟨wd, f, hi⟩ := hi
  have hbad : Use.invalid ⟨.reg n, wd, al⟩ = true := bne_iff_ne.2 hn
  refine hi.trans (runChecked_of_fault ?_ _ _)
  simp [State.operandFault, Use.isSfr, hbad]

/-- With its register group aligned, the instruction runs the access first. -/
theorem StartsWithAccess.run (hi : StartsWithAccess i s n efa k al kind) (hn : n.toNat % al = 0) :
    ∃ f, exec i s = runInstr s efa.len fun r => r.access (s.address s.ip efa) k kind >>= f := by
  obtain ⟨wd, f, hi⟩ := hi
  exact ⟨f, hi.trans (runChecked_of_canUse (s.canUseAll_group hn) _)⟩

theorem StartsWithAccess.unaligned (hi : StartsWithAccess i s n efa k al kind) (hn : n.toNat % al = 0)
    (ha : (s.address s.ip efa).toNat % naturalBoundary k ≠ 0)
    (hf : s.config.faultOnUnaligned = true) :
    exec i s = takeFault s s .unaligned (s.ip + efa.len) := by
  obtain ⟨f, hi⟩ := hi.run hn
  refine hi.trans (runInstr_trap ?_)
  rw [Run.access, if_pos ⟨ha, by rw [s.begin_s_config, hf]⟩]
  rfl

theorem StartsWithAccess.unaligned_bigEndian (hi : StartsWithAccess i s n efa k al kind) (hn : n.toNat % al = 0)
    (ha : (s.address s.ip efa).toNat % naturalBoundary k ≠ 0)
    (hf : s.config.faultOnUnaligned = false) (hb : s.bigEndian (s.address s.ip efa) = true) :
    exec i s = .fault .unalignedBigEndian := by
  obtain ⟨f, hi⟩ := hi.run hn
  refine hi.trans (runInstr_stop ?_)
  rw [Run.access, if_neg (fun hc => by rw [s.begin_s_config, hf] at hc; exact Bool.false_ne_true hc.2),
    if_pos ⟨ha, by rw [State.bigEndian_congr (s.begin_s_ctrl _), hb]⟩]
  rfl

theorem StartsWithAccess.protected_store (hi : StartsWithAccess i s n efa k al .store) (hn : n.toNat % al = 0)
    (ha : s.canAccess (s.address s.ip efa) k = true) (he : s.em = false)
    (hp : s.protectedRange (s.address s.ip efa) k = true) :
    exec i s = takeFault s s .typeMismatch (s.ip + efa.len) := by
  obtain ⟨f, hi⟩ := hi.run hn
  refine hi.trans (runInstr_trap ?_)
  rw [s.begin_access_protected ha he hp]
  rfl

end

/-- Settles O19. -/
theorem accessFaults : Obligations.AccessFaults := by
  intro n efa s a loads stores
  have hall : ∀ p ∈ loads ++ stores, ∃ kind, StartsWithAccess p.1 s n efa p.2.1 p.2.2 kind := fun p hp =>
    (List.mem_append.1 hp).elim (fun hl => ⟨_, loads_access n efa s p hl⟩)
      fun hs => ⟨_, stores_access n efa s p hs⟩
  refine ⟨fun p hp hn ha => ?_, fun p hp hn ha he hpr =>
    (stores_access n efa s p hp).protected_store hn ha he hpr, fun p hp hn => ?_⟩
  · obtain ⟨kind, hi⟩ := hall p hp
    exact ⟨hi.unaligned hn ha, hi.unaligned_bigEndian hn ha⟩
  · obtain ⟨kind, hi⟩ := hall p hp
    exact hi.misaligned_group hn

end Sys2Proof.Machine
end

section
/-! What instructions leave unchanged: the frames of the register instructions (O32), of loads, moves,
branches and the others (O33), and of the stores (O18). -/

namespace Sys2Proof.Machine

/-! Registers and system state outside a destination. -/

theorem State.getSfr_setSfr_ne (s : State) {n m : BitVec 5} (hne : m ≠ n) (v : Word) :
    (s.setSfr n v).getSfr m = s.getSfr m := by
  have hnat : m.toNat ≠ n.toNat := fun he => hne (BitVec.eq_of_toNat_eq he)
  unfold State.setSfr
  split
  case h_1 h0 => unfold State.getSfr; split <;> solve | omega | rfl
  case h_2 h0 => unfold State.getSfr; split <;> solve | omega | rfl
  case h_3 h0 => unfold State.getSfr; split <;> solve | omega | rfl
  case h_4 => rfl

theorem State.getSfr_setReg (s : State) (n : RegNum) (v : Word) (m : BitVec 5) :
    (s.setReg n v).getSfr m = s.getSfr m := by
  unfold State.setReg
  split <;> rfl

theorem State.getReg_setSfr (s : State) (n : BitVec 5) (v : Word) (m : RegNum) :
    (s.setSfr n v).getReg m = s.getReg m := by
  unfold State.setSfr
  split <;> rfl

/-- The system state leaves out the registers, AC, the instruction pointer, memory, what other agents are
still to do, and the model's count of free values. -/
theorem State.KeepsSystem.change {s t : State} (h : s.KeepsSystem t) (l g : Vector Word 16)
    (ip ac : Word) (m : Memory) (ts : List (List Host.Cell)) (d : Nat) (fl : Bool) (ipnd imsk dmac : Word) :
    s.KeepsSystem { t with locals := l, globals := g, ip := ip, ac := ac, mem := m, turns := ts, draws := d,
                           icache := { t.icache with fetchingLocked := fl },
                           intc := { t.intc with ipnd := ipnd, imsk := imsk },
                           dma := { t.dma with dmac := dmac } } :=
  { pctl := h.pctl, tc := h.tc, rcache := h.rcache, depth := h.depth, tables := h.tables,
    config := h.config, ctrl := h.ctrl, swPriority := h.swPriority, nmiPending := h.nmiPending,
    nmiDepth := h.nmiDepth, events := h.events, pins := h.pins, control := h.control,
    status := h.status, started := h.started, icacheMode := h.icacheMode, image := h.image,
    locked := h.locked, trace := h.trace }

theorem State.keepsSystem_refl (s : State) : s.KeepsSystem s :=
  { pctl := rfl, tc := rfl, rcache := rfl, depth := rfl, tables := rfl, config := rfl, ctrl := rfl,
    swPriority := rfl, nmiPending := rfl, nmiDepth := rfl, events := rfl, pins := ⟨rfl, rfl⟩,
    control := rfl, status := rfl, started := rfl, icacheMode := rfl, image := rfl, locked := rfl,
    trace := rfl }

section
variable {s t u : State} {o : Operand} {w : Nat}

/-- The instruction pointer, AC, memory, the turns and the model's count of free values are no part of
the registers and the system state. -/
theorem State.KeepsOutside.change (h : s.KeepsOutside t o w) (ip ac : Word) (m : Memory)
    (ts : List (List Host.Cell)) (d : Nat) (fl : Bool) :
    s.KeepsOutside { t with ip := ip, ac := ac, mem := m, turns := ts, draws := d,
                            icache := { t.icache with fetchingLocked := fl } } o w :=
  ⟨h.registers, h.sfrs, h.system.change t.locals t.globals ip ac m ts d fl t.intc.ipnd t.intc.imsk
    t.dma.dmac⟩

theorem State.keepsOutside_refl (s : State) (o : Operand) (w : Nat) : s.KeepsOutside s o w :=
  ⟨fun _ _ => rfl, fun _ _ => rfl, s.keepsSystem_refl⟩

/-- A word of the destination is outside nothing that must be kept. -/
theorem State.KeepsOutside.putValue (h : s.KeepsOutside t o w) {k : Nat} (hk : k < w) (v : Word) :
    s.KeepsOutside (t.putValue o k v) o w := by
  cases o with
  | reg n =>
    refine ⟨fun m hm => ?_, fun m hm => (t.getSfr_setReg _ v m).trans (h.sfrs m hm), ?_⟩
    · have hne : m ≠ n + BitVec.ofNat 5 k := fun he => hm k hk (by rw [he, BitVec.add_sub_cancel])
      rw [State.putValue, State.getReg_setReg, if_neg hne]
      exact h.registers m hm
    · rw [State.putValue, State.setReg]
      split
      · exact h.system.change (t.locals.set _ v) t.globals t.ip t.ac t.mem t.turns t.draws
          t.icache.fetchingLocked t.intc.ipnd t.intc.imsk t.dma.dmac
      · exact h.system.change t.locals (t.globals.set _ v _) t.ip t.ac t.mem t.turns t.draws
          t.icache.fetchingLocked t.intc.ipnd t.intc.imsk t.dma.dmac
  | sfr n =>
    refine ⟨fun m hm => (t.getReg_setSfr _ v m).trans (h.registers m hm), fun m hm => ?_, ?_⟩
    · have hne : m ≠ n + BitVec.ofNat 5 k := fun he => hm k hk (by rw [he, BitVec.add_sub_cancel])
      exact (t.getSfr_setSfr_ne hne v).trans (h.sfrs m hm)
    · rw [State.putValue, State.setSfr]
      split
      · exact h.system.change t.locals t.globals t.ip t.ac t.mem t.turns t.draws
          t.icache.fetchingLocked v t.intc.imsk t.dma.dmac
      · exact h.system.change t.locals t.globals t.ip t.ac t.mem t.turns t.draws
          t.icache.fetchingLocked t.intc.ipnd v t.dma.dmac
      · exact h.system.change t.locals t.globals t.ip t.ac t.mem t.turns t.draws
          t.icache.fetchingLocked t.intc.ipnd t.intc.imsk v
      · exact h.system
  | lit n => exact h
  | bad => exact h

theorem State.KeepsOutside.putWords {ws : List Word} {k : Nat} (h : s.KeepsOutside t o w)
    (hk : k + ws.length ≤ w) : s.KeepsOutside (t.putWords o k ws) o w := by
  induction ws generalizing t k with
  | nil => exact h
  | cons v ws ih =>
    rw [List.length_cons] at hk
    exact ih (h.putValue (by omega) v) (by omega)

/-- Registers, system state and memory, outside a destination. -/
def State.Kept (s t : State) (o : Operand) (w : Nat) : Prop := s.KeepsOutside t o w ∧ s.KeepsMemory t

theorem State.Kept.change (h : s.Kept t o w) (ip ac : Word) (d : Nat) (fl : Bool) :
    s.Kept { t with ip := ip, ac := ac, draws := d, icache := { t.icache with fetchingLocked := fl } }
      o w :=
  ⟨h.1.change ip ac t.mem t.turns d fl, h.2⟩

theorem State.kept_refl (s : State) (o : Operand) (w : Nat) : s.Kept s o w :=
  ⟨s.keepsOutside_refl o w, fun _ => rfl⟩

theorem State.kept_advance (s : State) (len : Word) (o : Operand) (w : Nat) :
    s.Kept (s.advance len) o w :=
  State.Kept.change ⟨s.keepsOutside_refl o w, fun _ => rfl⟩ (s.ip + len) s.ac s.draws
    s.icache.fetchingLocked

/-- A branch, or the next instruction. -/
theorem State.Kept.goTo (h : s.Kept t o w) (target : Word) : s.Kept (t.goTo target) o w :=
  h.change target t.ac t.draws false

theorem State.Kept.advance (h : s.Kept t o w) (len : Word) : s.Kept (t.advance len) o w :=
  h.change (t.ip + len) t.ac t.draws t.icache.fetchingLocked

theorem State.Kept.setAc (h : s.Kept t o w) (ac : Word) : s.Kept { t with ac := ac } o w :=
  h.change t.ip ac t.draws t.icache.fetchingLocked

theorem State.Kept.putWords {ws : List Word} (h : s.Kept t o w) (hw : ws.length ≤ w) :
    s.Kept (t.putWords o 0 ws) o w :=
  ⟨h.1.putWords (by omega), fun a => by
    rw [State.readByte, State.putWords_mem]
    exact h.2 a⟩

theorem State.Kept.putValue (h : s.Kept t o 1) (v : Word) : s.Kept (t.putValue o 0 v) o 1 :=
  h.putWords (ws := [v]) (Nat.le_refl 1)

theorem State.Kept.setReg {n : RegNum} (h : s.Kept t (.reg n) 1) (v : Word) :
    s.Kept (t.setReg n v) (.reg n) 1 := by
  have hput := h.putValue v
  rwa [State.putValue, show n + BitVec.ofNat 5 0 = n from BitVec.add_zero n] at hput

/-! AC. -/

theorem State.keepsAcButCc_setCc (h : t.ac = s.ac) (c : BitVec 3) : s.KeepsAcButCc (t.setCc c) := by
  have hbits (ac : Word) : (ac &&& ~~~7#32 ||| c.zeroExtend 32) &&& ~~~7#32 = ac &&& ~~~7#32 := by
    have hc : ∀ c : BitVec 3, c.zeroExtend 32 &&& ~~~7#32 = 0#32 := by decide
    rw [BitVec.and_or_distrib_right, hc, BitVec.or_zero, BitVec.and_assoc, BitVec.and_self]
  rw [State.KeepsAcButCc, ← h]
  exact hbits t.ac

theorem keepsAcButOf_putBit (ac : Word) : putBit ac 8 true &&& ~~~0x100#32 = ac &&& ~~~0x100#32 ∧
    (ac.getLsbD 8 = true → (putBit ac 8 true).getLsbD 8 = true) := by
  rw [putBit_of]
  have h0 : (0x100 : Word) &&& ~~~0x100#32 = 0#32 := by decide
  refine ⟨by rw [BitVec.and_or_distrib_right, h0, BitVec.or_zero], fun _ => ?_⟩
  rw [BitVec.getLsbD_or]
  exact Bool.or_true _

theorem State.keepsAcButOf_of_eq (h : t.ac = s.ac) : s.KeepsAcButOf t :=
  ⟨congrArg (· &&& ~~~0x100#32) h, fun hb => by rw [h, hb]⟩

end

/-! Register instructions. -/

/-- The next state of an outcome is one. -/
theorem next_inj {out : Host.Outcome State Fault Refusal} {t u : State} (hu : out = .next u)
    (ht : out = .next t) : t = u := Host.Outcome.next.inj (ht.symm.trans hu)

/-- An overflow that is masked sets AC.of only. -/
theorem State.overflowEnds_kept {s t : State} {o : Operand} (hom : s.om = true) {v : Word} {ov : Bool}
    (ht : s.overflowEnds ((s.advance 4).putValue o 0 v) ov = .next t) :
    s.Kept t o 1 ∧ s.KeepsAcButOf t := by
  have hput := (s.kept_advance 4 o 1).putValue v
  rw [State.overflowEnds_of (s := s) (len := 4) (by simp) (by simp)] at ht
  cases ov with
  | false => exact Host.Outcome.next.inj ht ▸ ⟨hput, State.keepsAcButOf_of_eq (by simp)⟩
  | true =>
    rw [if_pos rfl, if_pos hom] at ht
    exact Host.Outcome.next.inj ht ▸ ⟨hput.setAc _, keepsAcButOf_putBit s.ac⟩

section
variable {s t : State} (h : s.untraced = true) {src1 src2 : Src} {dst : Dst}
  (hu : s.canUseAll [(srcOperand src1).one, (srcOperand src2).one, (dstOperand dst).one] = true)

include h hu

theorem binaryForm_kept {f : Word → Word → Word} (ht : binaryForm s src1 src2 dst f = .next t) :
    s.Kept t (dstOperand dst) 1 ∧ t.ac = s.ac := by
  obtain rfl := next_inj (binaryForm_untraced h hu f) ht
  exact ⟨(s.kept_advance 4 _ _).putValue _, State.putValue_ac _ _ _ _⟩

theorem integerForm_kept (hom : s.om = true) {f : Word → Word → Word × Bool}
    (ht : integerForm s src1 src2 dst f = .next t) :
    s.Kept t (dstOperand dst) 1 ∧ s.KeepsAcButOf t := by
  rw [integerForm_untraced h hu] at ht
  exact State.overflowEnds_kept hom ht

theorem divideForm_kept (hom : s.om = true) (hx : s.value (srcOperand src1) 0 ≠ 0)
    {f : Word → Word → Word × Bool} (ht : divideForm s src1 src2 dst f = .next t) :
    s.Kept t (dstOperand dst) 1 ∧ s.KeepsAcButOf t := by
  rw [divideForm_untraced h hu hx] at ht
  exact State.overflowEnds_kept hom ht

/-- A division that cannot overflow leaves AC. -/
theorem divideForm_kept_ac (hx : s.value (srcOperand src1) 0 ≠ 0) {f : Word → Word → Word}
    (ht : divideForm s src1 src2 dst (fun x y => (f x y, false)) = .next t) :
    s.Kept t (dstOperand dst) 1 ∧ t.ac = s.ac := by
  obtain rfl := next_inj (divideForm_untraced h hu hx _) ht
  exact ⟨(s.kept_advance 4 _ _).putValue _, State.putValue_ac _ _ _ _⟩

theorem carryForm_kept {f : Word → Word → Bool → Word × Bool} {g : Word → Word → Bool → Bool}
    (ht : carryForm s src1 src2 dst f g = .next t) :
    s.Kept t (dstOperand dst) 1 ∧ s.KeepsAcButCc t := by
  obtain rfl := next_inj (carryForm_untraced h hu f g) ht
  exact ⟨((s.kept_advance 4 _ _).putValue _).setAc _, State.keepsAcButCc_setCc (by simp) _⟩

theorem compareStepForm_kept {f : Word → Word → BitVec 3} {g : Word → Word}
    (ht : compareStepForm s src1 src2 dst f g = .next t) :
    s.Kept t (dstOperand dst) 1 ∧ s.KeepsAcButCc t := by
  obtain rfl := next_inj (compareStepForm_untraced h hu f g) ht
  exact ⟨((s.kept_advance 4 _ _).putValue _).setAc _, State.keepsAcButCc_setCc (by simp) _⟩

end

/-- Settles O32. -/
theorem registerFrame : Obligations.RegisterFrame := by
  intro src1 src2 dst s t h hu kept
  simp only [List.forall_mem_cons, List.not_mem_nil, false_implies, implies_true, and_true]
  refine ⟨?binary, ?divide, ?integer, ?divideInteger, ?code⟩
  case binary => and_intros <;> intro ht <;> unfold exec at ht <;> exact binaryForm_kept h hu ht
  case divide => and_intros <;> intro hx ht <;> unfold exec at ht <;> exact divideForm_kept_ac h hu hx ht
  case integer => and_intros <;> intro hom ht <;> unfold exec at ht <;> exact integerForm_kept h hu hom ht
  case divideInteger =>
    and_intros <;> intro hom hx ht <;> unfold exec at ht <;> exact divideForm_kept h hu hom hx ht
  case code =>
    refine ⟨?_, ?_, ?_, ?_, ?_, ?_⟩ <;> intro ht <;> unfold exec at ht
    case refine_1 | refine_2 => exact carryForm_kept h hu ht
    all_goals exact compareStepForm_kept h hu ht

/-! Loads, tests, compares and branches. -/

/-- The condition code is written, then the branch is taken or not. -/
theorem State.codeBranch_kept (s : State) (c : BitVec 3) (target : Word) (p : Prop) [Decidable p] :
    s.Kept (if p then (s.setCc c).goTo target else (s.setCc c).advance 4) (.lit 0) 0 ∧
      s.KeepsAcButCc (if p then (s.setCc c).goTo target else (s.setCc c).advance 4) := by
  have hcc := State.keepsAcButCc_setCc (s := s) rfl c
  split
  · exact ⟨((s.kept_refl _ _).setAc _).goTo _, hcc⟩
  · exact ⟨((s.kept_refl _ _).setAc _).advance _, hcc⟩

section
variable {s t : State} (h : s.untraced = true)

include h

theorem loadForm_kept {efa : Efa} {n : RegNum} {k : Nat} {v : Bool → List Byte → Word}
    (ha : s.canAccess (s.address s.ip efa) k = true) (hw : s.whole (s.address s.ip efa) k = true)
    (ht : loadForm s efa n k v = .next t) : s.Kept t (.reg n) 1 ∧ t.ac = s.ac := by
  obtain rfl := next_inj (loadForm_whole h v ha hw) ht
  exact ⟨(s.kept_advance _ _ _).setReg _, State.setReg_ac _ _ _⟩

theorem loadGroupForm_kept {efa : Efa} {n : RegNum} {wd al : Nat} (hn : n.toNat % al = 0)
    (ha : s.canAccess (s.address s.ip efa) (4 * wd) = true)
    (hw : s.whole (s.address s.ip efa) (4 * wd) = true)
    (ht : loadGroupForm s efa n wd al = .next t) : s.Kept t (.reg n) wd ∧ t.ac = s.ac := by
  obtain rfl := next_inj (loadGroupForm_untraced h hn ha) ht
  rw [State.readRequests_whole hw,
    show s.address s.ip efa + BitVec.ofNat 32 0 = s.address s.ip efa from BitVec.add_zero _,
    State.wordsOf_readBytes, State.readWords_eq_map]
  exact ⟨(s.kept_advance _ _ _).putWords (by simp), State.putWords_ac _ _ _ _⟩

theorem execLda_kept {efa : Efa} {n : RegNum} (ht : exec (.lda efa n) s = .next t) :
    s.Kept t (.reg n) 1 ∧ t.ac = s.ac := by
  obtain ⟨-, -, -, -, hlda, -⟩ := loadResults efa n s h
  obtain rfl := next_inj hlda ht
  exact ⟨(s.kept_advance _ _ _).setReg _, State.setReg_ac _ _ _⟩

theorem testForm_kept {n : RegNum} {mask : BitVec 3} (ht : testForm s (.reg n) mask = .next t) :
    s.Kept t (.reg n) 1 ∧ t.ac = s.ac := by
  obtain rfl := next_inj (testForm_untraced h n mask) ht
  exact ⟨(s.kept_advance _ _ _).setReg _, State.setReg_ac _ _ _⟩

theorem updateForm_kept {src1 src2 : Src} {n : RegNum}
    (hu : s.canUseAll [(srcOperand src1).one, (srcOperand src2).one] = true)
    {f : Word → Word → Word → Word} (ht : updateForm s src1 src2 (.reg n) f = .next t) :
    s.Kept t (.reg n) 1 ∧ t.ac = s.ac := by
  obtain rfl := next_inj (updateForm_untraced h hu f) ht
  exact ⟨(s.kept_advance _ _ _).setReg _, State.setReg_ac _ _ _⟩

theorem unaryForm_kept {src : Src} {dst : Dst}
    (hu : s.canUseAll [(srcOperand src).one, (dstOperand dst).one] = true) {f : Word → Word}
    (ht : unaryForm s src dst f = .next t) : s.Kept t (dstOperand dst) 1 ∧ t.ac = s.ac := by
  obtain rfl := next_inj (unaryForm_untraced h hu f) ht
  exact ⟨(s.kept_advance 4 _ _).putValue _, State.putValue_ac _ _ _ _⟩

theorem unaryCodeForm_kept {src : Src} {dst : Dst}
    (hu : s.canUseAll [(srcOperand src).one, (dstOperand dst).one] = true) {f : Word → Word × BitVec 3}
    (ht : unaryCodeForm s src dst f = .next t) :
    s.Kept t (dstOperand dst) 1 ∧ s.KeepsAcButCc t := by
  obtain rfl := next_inj (unaryCodeForm_untraced h hu f) ht
  exact ⟨((s.kept_advance 4 _ _).putValue _).setAc _, State.keepsAcButCc_setCc (by simp) _⟩

theorem moveForm_kept {src : Src} {dst : Dst} {wd al : Nat}
    (hu : s.canUseAll [⟨srcOperand src, wd, al⟩, ⟨dstOperand dst, wd, al⟩] = true)
    (ht : moveForm s src dst wd al = .next t) : s.Kept t (dstOperand dst) wd ∧ t.ac = s.ac := by
  obtain rfl := next_inj (moveForm_untraced h hu) ht
  exact ⟨(s.kept_advance 4 _ _).putWords (by simp), State.putWords_ac _ _ _ _⟩

theorem codeForm_kept {src1 src2 : Src}
    (hu : s.canUseAll [(srcOperand src1).one, (srcOperand src2).one] = true)
    {f : Word → Word → BitVec 3} (ht : codeForm s src1 src2 f = .next t) :
    s.Kept t (.lit 0) 0 ∧ s.KeepsAcButCc t := by
  obtain rfl := next_inj (codeForm_untraced h hu f) ht
  exact ⟨(s.kept_advance 4 _ _).setAc _, State.keepsAcButCc_setCc rfl _⟩

theorem conditionBranchForm_kept {mask : BitVec 3} {d : BitVec 22}
    (ht : conditionBranchForm s mask d = .next t) : s.Kept t (.lit 0) 0 ∧ t.ac = s.ac := by
  obtain rfl := next_inj (conditionBranchForm_untraced h mask d) ht
  split
  · exact ⟨(s.kept_refl _ _).goTo _, rfl⟩
  · exact ⟨s.kept_advance _ _ _, rfl⟩

theorem compareBranchForm_kept {a : CSrc1} {b : CSrc2}
    (hu : s.canUseAll [(csrc1Operand a).one, (csrc2Operand b).one] = true) {d : BitVec 11}
    {cmp : Word → Word → BitVec 3} {mask : BitVec 3}
    (ht : compareBranchForm s a b d cmp mask = .next t) : s.Kept t (.lit 0) 0 ∧ s.KeepsAcButCc t := by
  obtain rfl := next_inj (compareBranchForm_untraced h hu rfl Iff.rfl) ht
  exact s.codeBranch_kept _ _ _

theorem bitBranchForm_kept {a : CSrc1} {b : CSrc2}
    (hu : s.canUseAll [(csrc1Operand a).one, (csrc2Operand b).one] = true) {d : BitVec 11} {want : Bool}
    (ht : bitBranchForm s a b d want = .next t) : s.Kept t (.lit 0) 0 ∧ s.KeepsAcButCc t := by
  obtain rfl := next_inj (bitBranchForm_goTo h hu d want) ht
  exact s.codeBranch_kept _ _ _

end

/-- Settles O33. -/
theorem otherFrames : Obligations.OtherFrames := by
  intro src1 src2 dst n efa a b disp d p s t h x y o kept
  simp only [List.forall_mem_cons, List.not_mem_nil, false_implies, implies_true, and_true]
  refine ⟨?loads, ?moves, ?ediv, ?scans, ?fields, ?tests, ?compares, ?compareBranches, ?branches, ?bx,
    ?bal, ?balx⟩
  case loads =>
    refine ⟨?_, ?_, ?_, ?_, ?_, ?_, ?_, ?_, ?_⟩ <;> intro hn ha hw ht
    case refine_6 => exact execLda_kept h ht
    all_goals unfold exec at ht
    case refine_7 | refine_8 | refine_9 => exact loadGroupForm_kept h hn ha hw ht
    all_goals exact loadForm_kept h ha hw ht
  case moves =>
    obtain ⟨hemul, -, heshro⟩ := extendedResults src1 src2 dst s h
    refine ⟨?mov, ?not, ?movl, ?movt, ?movq, ?emul, ?eshro⟩ <;> intro hu ht
    case emul =>
      obtain rfl := next_inj (hemul hu) ht
      exact ⟨(s.kept_advance 4 _ _).putWords (Nat.le_refl 2), State.putWords_ac _ _ _ _⟩
    case eshro =>
      obtain rfl := next_inj (heshro hu) ht
      exact ⟨(s.kept_advance 4 _ _).putWords (Nat.le_refl 1), State.putWords_ac _ _ _ _⟩
    all_goals unfold exec at ht
    case not => exact unaryForm_kept h hu ht
    all_goals exact moveForm_kept h hu ht
  case ediv =>
    intro hu hx ht
    obtain ⟨-, hediv, -⟩ := extendedResults src1 src2 dst s h
    obtain ⟨hfits, hfree⟩ := hediv hu fun h0 => hx (BitVec.eq_of_toNat_eq h0)
    rcases Nat.lt_or_ge (((s.value (srcOperand src2) 1).toNat * 2 ^ 32 +
        (s.value (srcOperand src2) 0).toNat) / (s.value (srcOperand src1) 0).toNat) (2 ^ 32) with hq | hq
    · obtain rfl := next_inj (hfits hq) ht
      exact ⟨(s.kept_advance 4 _ _).putWords (Nat.le_refl 2), State.putWords_ac _ _ _ _⟩
    · obtain ⟨v, w, draws, hnext⟩ := hfree hq
      obtain rfl := next_inj hnext ht
      have hput : s.Kept ((s.advance 4).putWords (dstOperand dst) 0 [v, w]) (dstOperand dst) 2 :=
        (s.kept_advance 4 _ _).putWords (Nat.le_refl 2)
      exact ⟨hput.change _ _ draws _, State.putWords_ac _ _ _ _⟩
  case scans =>
    refine ⟨?_, ?_⟩ <;> intro hu ht <;> unfold exec at ht <;> exact unaryCodeForm_kept h hu ht
  case fields =>
    refine ⟨?_, ?_⟩ <;> intro hu ht <;> unfold exec at ht <;> exact updateForm_kept h hu ht
  case tests => and_intros <;> intro ht <;> unfold exec at ht <;> exact testForm_kept h ht
  case compares => and_intros <;> intro hu ht <;> unfold exec at ht <;> exact codeForm_kept h hu ht
  case compareBranches =>
    refine ⟨?bbc, ?bbs, ?_, ?_, ?_, ?_, ?_, ?_, ?_, ?_, ?_, ?_, ?_, ?_, ?_, ?_⟩ <;> intro hu ht <;>
      unfold exec at ht
    case bbc | bbs => exact bitBranchForm_kept h hu ht
    all_goals exact compareBranchForm_kept h hu ht
  case branches =>
    refine ⟨?b, ?_, ?_, ?_, ?_, ?_, ?_, ?_, ?_⟩ <;> intro ht
    case b =>
      obtain rfl := next_inj (exec_b_untraced h disp p) ht
      exact ⟨(s.kept_refl _ _).goTo _, rfl⟩
    all_goals unfold exec at ht; exact conditionBranchForm_kept h ht
  case bx =>
    intro ht
    obtain rfl := next_inj (exec_bx_untraced h efa) ht
    exact ⟨(s.kept_refl _ _).goTo _, rfl⟩
  all_goals
    obtain ⟨-, -, -, -, -, -, -, -, -, -, hbal, hbalx⟩ := branchResults disp p efa n s h
    intro ht
  case bal =>
    obtain rfl := next_inj hbal ht
    exact ⟨((s.kept_refl _ _).setReg _).goTo _, State.setReg_ac _ _ _⟩
  case balx =>
    obtain rfl := next_inj hbalx ht
    exact ⟨((s.kept_refl _ _).setReg _).goTo _, State.setReg_ac _ _ _⟩

/-! Stores. -/

section
variable {s t : State} (h : s.untraced = true) (hwf : s.mem.wf = true) {a : Word} {k : Nat}

/-- Outside n bytes from an address, AC.of, and the instruction pointer nothing has changed. -/
def State.StoreKept (s t : State) (a : Word) (n : Nat) : Prop :=
  s.KeepsMemoryOutside t a n ∧ s.KeepsOutside t (.lit 0) 0 ∧ s.KeepsAcButOf t

include hwf in
theorem State.storeKept_writeBytes (len : Word) {bs : List Byte} (hl : bs.length = k) :
    s.StoreKept ((s.advance len).writeBytes a bs) a k := by
  refine ⟨fun x hx => ?_, ?_, State.keepsAcButOf_of_eq (by simp)⟩
  · exact State.readByte_writeBytes_outside (s := s.advance len) hwf (hl ▸ hx)
  · obtain ⟨m, hm⟩ := (s.advance len).writeBytes_eq a bs
    rw [hm]
    exact (s.keepsOutside_refl _ _).change (s.ip + len) s.ac m s.turns s.draws s.icache.fetchingLocked

theorem State.StoreKept.overflow (hs : s.StoreKept t a k) :
    s.StoreKept { t with ac := putBit s.ac 8 true } a k :=
  ⟨hs.1, hs.2.1.change t.ip (putBit s.ac 8 true) t.mem t.turns t.draws t.icache.fetchingLocked,
    keepsAcButOf_putBit s.ac⟩

variable {efa : Efa} {n : RegNum}

include h hwf

theorem storeForm_kept {bytes : Bool → Word → List Byte} (hl : ∀ be v, (bytes be v).length = k)
    (ha : s.canStore (s.address s.ip efa) k = true) (hw : s.whole (s.address s.ip efa) k = true)
    (ht : storeForm s n efa k bytes = .next t) : s.StoreKept t (s.address s.ip efa) k := by
  obtain rfl := next_inj (storeForm_untraced h bytes ha) ht
  rw [State.writeRequests_at (s := s.advance efa.len) hw]
  exact State.storeKept_writeBytes hwf _ (hl _ _)

theorem storeIntegerForm_kept {bytes : Bool → Word → List Byte} {fits : Word → Bool}
    (hl : ∀ be v, (bytes be v).length = k) (ha : s.canStore (s.address s.ip efa) k = true)
    (hw : s.whole (s.address s.ip efa) k = true) (hom : s.om = true)
    (ht : storeIntegerForm s n efa k bytes fits = .next t) :
    s.StoreKept t (s.address s.ip efa) k := by
  have hstored := State.storeKept_writeBytes hwf (a := s.address s.ip efa) efa.len
    (hl (s.bigEndian (s.address s.ip efa)) (s.getReg n))
  rw [storeIntegerForm_untraced h bytes fits ha (State.writeRequests_at (s := s.advance efa.len) hw _),
    if_pos hom] at ht
  split at ht
  · exact Host.Outcome.next.inj ht ▸ hstored
  · exact Host.Outcome.next.inj ht ▸ hstored.overflow

theorem storeGroupForm_kept {wd al : Nat} (hn : n.toNat % al = 0)
    (ha : s.canStore (s.address s.ip efa) (4 * wd) = true)
    (hw : s.whole (s.address s.ip efa) (4 * wd) = true) (ht : storeGroupForm s n efa wd al = .next t) :
    s.StoreKept t (s.address s.ip efa) (4 * wd) := by
  obtain rfl := next_inj (storeGroupForm_untraced h hn ha) ht
  rw [State.writeRequests_at (s := s.advance efa.len) hw]
  exact State.storeKept_writeBytes hwf _ (by simp [State.bytesOf_length])

end

theorem bytesOfHalf_length (be : Bool) (v : BitVec 16) : (bytesOfHalf be v).length = 2 := by
  cases be <;> rfl

/-- Settles O18. -/
theorem storeFrame : Obligations.StoreFrame := by
  intro src efa s t h hwf
  simp only [List.forall_mem_cons, List.not_mem_nil, false_implies, implies_true, and_true]
  refine ⟨?st, ?stob, ?stos, ?stib, ?stis, ?stl, ?stt, ?stq⟩ <;> intro hn ha hw hom ht <;>
    unfold exec at ht
  case st => exact storeForm_kept h hwf bytesOfWord_length ha hw ht
  case stob => exact storeForm_kept h hwf (fun _ _ => rfl) ha hw ht
  case stos => exact storeForm_kept h hwf (fun be v => bytesOfHalf_length be _) ha hw ht
  case stib => exact storeIntegerForm_kept h hwf (fun _ _ => rfl) ha hw hom ht
  case stis => exact storeIntegerForm_kept h hwf (fun be v => bytesOfHalf_length be _) ha hw hom ht
  all_goals exact storeGroupForm_kept h hwf hn ha hw ht

end Sys2Proof.Machine
end

section
/-! The checks before an instruction (O51); the atomic instructions (O46) and the controls (O47). -/

namespace Sys2Proof.Machine

/-! Operand checks (`61_faults.md` R531 steps 5 and 6). -/

theorem State.operandFault_typeMismatch {s : State} {us : List Use} (hem : s.em = false)
    (hsfr : us.any Use.isSfr = true) : s.operandFault us = some .typeMismatch := by
  rw [State.operandFault, hem, hsfr]
  rfl

theorem State.operandFault_invalid {s : State} {us : List Use}
    (hok : s.em = true ∨ us.any Use.isSfr = false) (hbad : us.any Use.invalid = true) :
    s.operandFault us = some .invalidOperand := by
  have hnone : (!s.em && us.any Use.isSfr) = false := by
    rcases hok with h | h <;> simp [h]
  simp only [State.operandFault, hnone, hbad, Bool.false_eq_true, if_false, if_true]

/-- An instruction of four bytes whose operands are checked first. -/
theorem operandChecks {i : Instr} {s : State} {us : List Use} {body : Run → Except Stop Run}
    (he : exec i s = runChecked s 4 us body) :
    (s.em = false → us.any Use.isSfr = true →
      exec i s = takeEarlyFault s .typeMismatch (s.ip + 4)) ∧
    (s.em = true ∨ us.any Use.isSfr = false → us.any Use.invalid = true →
      exec i s = takeEarlyFault s .invalidOperand (s.ip + 4)) :=
  ⟨fun hem hsfr => he.trans (runChecked_of_fault (State.operandFault_typeMismatch hem hsfr) _ _),
    fun hok hbad => he.trans (runChecked_of_fault (State.operandFault_invalid hok hbad) _ _)⟩

/-- Settles O51. -/
theorem operandFaults : Obligations.OperandFaults := by
  intro src1 src2 src3 dst upd c1 c2 d p s x y o v checks
  have hchecks {i : Instr} {us : List Use} {body : Run → Except Stop Run}
      (he : exec i s = runChecked s 4 us body) : checks i us := operandChecks he
  clear_value checks
  simp only [List.forall_mem_cons, List.not_mem_nil, false_implies, implies_true, and_true]
  refine ⟨fun hem => ⟨if_pos hem, if_pos hem, if_pos hem⟩, fun hem => ?supervisor, ?_⟩
  case supervisor =>
    have hsup : ¬s.em = false := ne_false_of_eq_true hem
    have hfault {us : List Use} (hbad : us.any Use.invalid = true) :=
      State.operandFault_invalid (us := us) (.inl hem) hbad
    refine ⟨fun hbad => (if_neg hsup).trans (runChecked_of_fault (hfault hbad) _ _),
      fun hbad => (if_neg hsup).trans (runChecked_of_fault (hfault ?_) _ _)⟩
    rw [show ∀ u v w : Use, [u, v, w] = [u, v] ++ [w] from fun _ _ _ => rfl, List.any_append, hbad,
      Bool.true_or]
  all_goals and_intros
  all_goals exact hchecks rfl

/-! Atomic instructions (`46_atomic_procmgmt.md` R450, R451). -/

/-- A word address is aligned, so an access there can only fail its protection check. -/
theorem State.canAccess_alignTarget (s : State) (v : Word) : s.canAccess (alignTarget v) 4 = true := by
  have h4 : (alignTarget v).toNat % 4 = 0 := by
    have hlow := congrArg BitVec.toNat (alignTarget_aligned v)
    rwa [BitVec.extractLsb'_toNat, Nat.shiftRight_zero] at hlow
  simp [State.canAccess, naturalBoundary, h4]

theorem State.canStore_eq_false {s : State} {a : Word} {n : Nat} (ha : s.canAccess a n = true) :
    s.canStore a n = false ↔ s.em = false ∧ s.protectedRange a n = true := by
  simp [State.canStore, ha]

/-- The 16-byte block of a word is that of its operand. -/
theorem block_alignTarget (v : Word) : alignTarget v &&& 0xFFFFFFF0 = v &&& 0xFFFFFFF0 := by
  rw [alignTarget, BitVec.and_assoc]
  rfl

theorem toNat_and_block (v : Word) : (v &&& 0xFFFFFFF0).toNat = v.toNat - v.toNat % 16 := by
  have hshift : v &&& (0xFFFFFFF0 : Word) = (v >>> 4) <<< 4 := by
    ext i hi
    change (v &&& 0xFFFFFFF0#32)[i] = _
    simp only [BitVec.getElem_and, BitVec.getElem_shiftLeft, BitVec.getElem_ushiftRight]
    interval_cases i <;> simp
  have hlt := v.isLt
  rw [hshift, BitVec.toNat_shiftLeft, BitVec.toNat_ushiftRight, Nat.shiftRight_eq_div_pow,
    Nat.shiftLeft_eq]
  omega

/-- An address is less than 16 bytes above its block. -/
theorem sub_block_lt (v : Word) : (v - (v &&& 0xFFFFFFF0)).toNat < 16 := by
  have hb := toNat_and_block v
  have hlt := v.isLt
  rw [BitVec.toNat_sub_of_le (by rw [BitVec.le_def]; omega)]
  omega

/-- A general register can always be a further operand. -/
theorem State.canUseAll_append_reg (s : State) {u v : Use} (hu : s.canUseAll [u, v] = true)
    (n : RegNum) : s.canUseAll [u, v, (Operand.reg n).one] = true := by
  have hreg := s.canUseAll_reg n
  simp only [State.canUseAll, List.all_cons, List.all_nil, Bool.and_true] at hu hreg ⊢
  rw [hreg, Bool.and_true]
  exact hu

section
variable {s : State} {us : List Use} (hu : s.canUseAll us = true)

include hu

theorem runChecked_atomic (h : s.untraced = true) {v : Word} (hs : s.canStore (alignTarget v) 4 = true)
    (write : Word → Word) (o : Operand) :
    runChecked s 4 us (fun r => r.atomic (alignTarget v) write o) =
      .next ((((s.advance 4).lockedTurn (v &&& 0xFFFFFFF0) 16).writeWord (alignTarget v)
        (write (s.readWord (alignTarget v)))).putValue o 0 (s.readWord (alignTarget v))) := by
  have hm := (s.untraced_iff.1 h).1
  obtain ⟨ha, hp⟩ := State.canStore_iff.1 hs
  rw [← block_alignTarget]
  generalize alignTarget v = a at *
  refine (runChecked_access_untraced h hu ha (fun _ => hp) _).trans ?_
  rw [runChecked_of_canUse hu]
  refine runInstr_untraced h (r := Run.put (Run.modify
    (Run.note ⟨s.advance 4, s.tc, s.te, 0, none, none⟩ ((s.advance 4).dataBreak s.tc a 4 .load))
    fun t => (t.lockedTurn (a &&& 0xFFFFFFF0) 16).writeWord a (write (s.readWord a))) o 0
      (s.readWord a)) rfl hm ?_ rfl rfl
  change (0 ||| (s.advance 4).dataBreak s.tc a 4 .load) &&& 0x0F800000 = 0
  rw [State.dataBreak_off _ hm]
  decide

theorem runChecked_atomic_protected {v : Word} (hs : s.canStore (alignTarget v) 4 = false)
    (write : Word → Word) (o : Operand) :
    runChecked s 4 us (fun r => r.atomic (alignTarget v) write o) =
      takeFault s s .typeMismatch (s.ip + 4) := by
  obtain ⟨hem, hp⟩ := (State.canStore_eq_false (s.canAccess_alignTarget v)).1 hs
  rw [runChecked_of_canUse hu]
  refine runInstr_trap ?_
  rw [Run.atomic, s.begin_access_protected (s.canAccess_alignTarget v) hem hp]
  rfl

end

/-- Settles O46. -/
theorem atomicResults : Obligations.AtomicResults := by
  intro src1 src2 dst n s a block y old mixed u
  refine ⟨fun hq => State.lockedTurn_nil (s := s.advance 4) hq _ _, fun hwf hstop x hx => ?_,
    fun hu => ⟨fun h hs => ?_, fun hs => ?_⟩, fun hu => ?_⟩
  · have hmask : (s.advance 4).startedMask = 0 := by
      change BitVec.ofBool (s.dma.started.get 3) ++ BitVec.ofBool (s.dma.started.get 2) ++
        BitVec.ofBool (s.dma.started.get 1) ++ BitVec.ofBool (s.dma.started.get 0) = 0#4
      rw [hstop, hstop, hstop, hstop]
      rfl
    exact State.lockedTurn_readByte (s := s.advance 4) hwf hmask block x 16 (hx ▸ sub_block_lt x)
  · unfold exec
    exact runChecked_atomic hu h hs _ _
  · unfold exec
    exact runChecked_atomic_protected hu hs _ _
  · have hn : n + BitVec.ofNat 5 0 = n := BitVec.add_zero n
    have hu' : s.canUseAll [(addressOperand src1).one, (srcOperand src2).one, (Operand.reg n).one] =
        true := s.canUseAll_append_reg hu n
    refine ⟨fun h hs => ?_, fun hs => ?_⟩
    · unfold exec
      refine (runChecked_atomic hu' h hs _ (.reg n)).trans ?_
      simp only [State.putValue, State.value, updOperand, hn, underMask]
      rfl
    · unfold exec
      exact runChecked_atomic_protected hu' hs _ _

/-! Controls modified (`45_fault_debug.md` R437; `46_atomic_procmgmt.md` R462, R463). -/

/-- With no window open the modes that are in force are those of TC. -/
theorem State.effectiveModes_untraced {s : State} (h : s.untraced = true) (w : Word) :
    s.effectiveModes w = w := by
  obtain ⟨-, htc, -⟩ := s.untraced_iff.1 h
  simp [State.effectiveModes, htc]

theorem State.effectiveTe_untraced {s : State} (h : s.untraced = true) (b : Bool) :
    s.effectiveTe b = b := by
  obtain ⟨-, -, hte⟩ := s.untraced_iff.1 h
  simp [State.effectiveTe, hte]

/-- With tracing off before, an instruction signals what it lets through itself. -/
theorem runInstr_signals {s : State} (h : s.untraced = true) {len : Word}
    {body : Run → Except Stop Run} {r : Run}
    (hb : body ⟨s.advance len, s.tc, s.te, 0, none, none⟩ = .ok r) (hp : r.post = none)
    (hl : r.late = none) : runInstr s len body = .next (r.s.signal r.events r.s.te s.ip) := by
  simp only [runInstr, State.begin_untraced h, hb, Run.finish, hp, Run.signalled, hl,
    State.effectiveTe_untraced h]

/-- The instruction-trace event passes with its mode. -/
theorem instructionEvent_gate (w : Word) :
    evInstruction &&& eventGate w = if w.getLsbD 1 then evInstruction else 0 := by
  refine BitVec.eq_of_getLsbD_eq fun j hj => ?_
  have hev : evInstruction.getLsbD j = decide (j = 17) := by
    have hall : ∀ j : Fin 32, evInstruction.getLsbD j.val = decide (j.val = 17) := by decide
    exact hall ⟨j, hj⟩
  have hgate : (eventGate w).getLsbD 17 = w.getLsbD 1 := by
    have h7E : (0x7E : Word).getLsbD 1 = true := by decide
    have hbrk : (0x0F800000 : Word).getLsbD 17 = false := by decide
    have hlow : (decide (17 < 32) && !decide (17 < 16)) = true := by decide
    rw [eventGate, BitVec.getLsbD_or, hbrk, Bool.or_false, BitVec.getLsbD_shiftLeft, hlow, Bool.true_and,
      BitVec.getLsbD_and, h7E, Bool.and_true]
  rw [BitVec.getLsbD_and, hev]
  by_cases hj17 : j = 17
  · rw [hj17, hgate]
    cases w.getLsbD 1 <;> rfl
  · rw [decide_eq_false hj17, Bool.false_and]
    cases w.getLsbD 1
    · exact BitVec.getLsbD_zero.symm
    · rw [if_pos rfl, hev, decide_eq_false hj17]

/-- An access of the processor itself notes nothing with the breakpoint mode off. -/
theorem Run.implicit_untraced {r : Run} (h : r.modes &&& 0xFE = 0) (a : Word) (n : Nat) :
    r.implicit a n = r := by
  rw [Run.implicit, State.dataBreak_off _ h, Run.note]
  exact congrArg (fun w => { r with noted := w }) BitVec.or_zero

/-- No data breakpoint matches: the breakpoint mode is off, or the breakpoints are. -/
def State.NoDataBreak (s : State) : Prop :=
  ∀ u : State, u.ctrl = s.ctrl → ∀ (a : Word) (n : Nat) (k : AccessKind), u.dataBreak s.tc a n k = 0

theorem State.noDataBreak_of_modes {s : State} (hm : s.tc &&& 0xFE = 0) : s.NoDataBreak :=
  fun u _ => State.dataBreak_off u hm

/-- Then an access of the processor itself notes nothing. -/
theorem Run.implicit_quiet {s : State} {r : Run} (hb : s.NoDataBreak) (hc : r.s.ctrl = s.ctrl)
    (hm : r.modes = s.tc) (a : Word) (n : Nat) : r.implicit a n = r := by
  rw [Run.implicit, hm, hb r.s hc, Run.note]
  exact congrArg (fun w => { r with noted := w }) BitVec.or_zero

/-- The body of `modpc` from where PC is installed. -/
theorem runChecked_installPc {s : State} (h : s.untraced = true) {us : List Use}
    (hu : s.canUseAll us = true) (f : State → State) (w : Word) {v : State}
    (hv : { f (s.advance 4) with
            pctl := w
            trace := if w.getLsbD 0 = s.te then (f (s.advance 4)).trace
              else { (f (s.advance 4)).trace with teDelay := { left := 4, old := s.te } } } = v) :
    runChecked s 4 us (fun r => .ok ((r.modify f).installPc s w)) =
      .next (if w.extractLsb' 16 5 < s.priority then v.checkPending else v) := by
  have hm := (s.untraced_iff.1 h).1
  have hprio : v.priority = w.extractLsb' 16 5 := by rw [← hv]; rfl
  have hrun : ((Run.modify ⟨s.advance 4, s.tc, s.te, 0, none, none⟩ f).installPc s w) =
      ⟨if w.extractLsb' 16 5 < s.priority then v.checkPending else v, s.tc, s.te, 0, none, none⟩ := by
    simp only [Run.installPc, Run.modify, hv, hprio]
    rw [Run.implicit_untraced hm]
    split <;> rfl
  rw [runChecked_of_canUse hu]
  exact runInstr_untraced h (body := fun r => .ok ((r.modify f).installPc s w))
    (r := ⟨if w.extractLsb' 16 5 < s.priority then v.checkPending else v, s.tc, s.te, 0, none, none⟩)
    (congrArg Except.ok hrun) hm BitVec.zero_and rfl rfl

section
variable {s : State} (h : s.untraced = true) {us : List Use} (hu : s.canUseAll us = true)

include h hu

/-- `modtc` with the TC that it leaves. -/
theorem runChecked_installTc (o : Operand) (w : Word) :
    runChecked s 4 us (fun r => .ok ((r.put o 0 s.tc).installTc s w)) =
      .next (((Run.put ⟨s.advance 4, s.tc, s.te, 0, none, none⟩ o 0 s.tc).installTc s w).s.signal
        (if w.getLsbD 1 then evInstruction else 0) s.te s.ip) := by
  have hte : ((Run.put ⟨s.advance 4, s.tc, s.te, 0, none, none⟩ o 0 s.tc).installTc s w).s.te = s.te :=
    congrArg (fun p : Word => p.getLsbD 0) (State.putValue_pctl (s.advance 4) o 0 s.tc)
  have hev : ((Run.put ⟨s.advance 4, s.tc, s.te, 0, none, none⟩ o 0 s.tc).installTc s w).events =
      if w.getLsbD 1 then evInstruction else 0 := by
    rw [← instructionEvent_gate, Run.events]
    change (0#32 ||| evInstruction) &&& eventGate (s.effectiveModes w) = _
    rw [State.effectiveModes_untraced h, BitVec.zero_or]
  rw [runChecked_of_canUse hu, ← hev]
  exact (runInstr_signals h
    (r := (Run.put ⟨s.advance 4, s.tc, s.te, 0, none, none⟩ o 0 s.tc).installTc s w) rfl rfl rfl).trans
    (by rw [hte])

end

/-- Settles O47. -/
theorem controlsModified : Obligations.ControlsModified := by
  intro src1 src2 dst n s h x y mixed u
  have hm := (s.untraced_iff.1 h).1
  have htrace (w : Word) : (u w).trace = s.trace := State.putValue_trace _ _ _ _
  have hpctl (w : Word) : (u w).pctl = s.pctl := State.putValue_pctl _ _ _ _
  refine ⟨fun hu => ⟨?modac, fun hw => ?quiet, fun hw h1 => ?window, fun h1 => ?event⟩, fun hu => ?modpc⟩
  case modac =>
    unfold exec
    exact runChecked_modify h hu 4 fun t =>
      { t.putValue (dstOperand dst) 0 s.ac with
        ac := underMask (s.value (srcOperand src1) 0) (s.value (srcOperand src2) 0) s.ac }
  case quiet =>
    have h1 : (mixed x y s.tc).getLsbD 1 = false := mode_bit_off hw (by decide)
    unfold exec
    refine (runChecked_installTc h hu _ (mixed x y s.tc)).trans ?_
    rw [h1, Run.installTc, hw, hm]
    rfl
  case window =>
    unfold exec
    refine (runChecked_installTc h hu _ (mixed x y s.tc)).trans ?_
    rw [h1, Run.installTc, hm, if_neg hw, ← htrace s.tc]
    rfl
  case event =>
    have hw : mixed x y s.tc &&& 0xFE ≠ 0 := fun h0 => by
      rw [mode_bit_off h0 (by decide)] at h1
      exact Bool.false_ne_true h1
    unfold exec
    refine (runChecked_installTc h hu _ (mixed x y s.tc)).trans ?_
    rw [h1, Run.installTc, hm, if_neg hw, ← htrace s.tc, ← hpctl s.tc]
    cases s.te <;> rfl
  case modpc =>
    have hn : n + BitVec.ofNat 5 0 = n := BitVec.add_zero n
    have hu' : s.canUseAll [(srcOperand src1).one, (srcOperand src2).one, (updOperand (.reg n)).one] =
        true := s.canUseAll_append_reg hu n
    have hput (t : State) : t.putValue (updOperand (.reg n)) 0 s.pctl = t.setReg n s.pctl := by
      rw [updOperand, State.putValue, hn]
    have hold : s.value (updOperand (.reg n)) 0 = s.getReg n := by rw [updOperand, State.value, hn]
    intro w v
    refine ⟨fun hy => ?read, fun hy hem => ?user, fun hy hem hr => ?reserved, fun hy hem hr => ?install⟩ <;>
      unfold exec execModpc <;>
      simp only [show s.value (srcOperand src2) 0 = y from rfl, hy, if_true, if_false, hold]
    case read => exact (runChecked_modify h hu' 4 _).trans (congrArg _ (hput _))
    all_goals simp only [hem, if_true, if_false, Bool.true_eq_false]
    case user => exact (runChecked_of_canUse hu' _).trans (runInstr_trap rfl)
    case reserved => exact (runChecked_of_canUse hu' _).trans (runInstr_stop (if_pos hr))
    case install =>
      refine (congrArg _ (funext fun r => if_neg (not_not.2 hr))).trans ?_
      refine runChecked_installPc h hu' (fun t => t.putValue (updOperand (.reg n)) 0 s.pctl) w ?_
      rw [hput, State.setReg_trace]
      rfl

end Sys2Proof.Machine
end

section
/-! The register cache and what it writes to memory; then calls (O38, O39, O40). -/

namespace Sys2Proof.Machine

/-! Memory that is written as it was. -/

/-- Writing a word that was read at the same address changes nothing. -/
theorem State.readByte_writeWord_readWord {s : State} (hw : s.mem.wf = true) (a x : Word) :
    (s.writeWord a (s.readWord a)).readByte x = s.readByte x := by
  obtain ⟨hin, hout, -⟩ := wordStored s a (s.readWord a) hw
  by_cases hx : 4 ≤ (x - a).toNat
  · exact hout x hx
  · have hk : (x - a).toNat < 4 := by omega
    have hax : a + BitVec.ofNat 32 (x - a).toNat = x := by
      rw [BitVec.ofNat_toNat, BitVec.setWidth_eq, BitVec.add_comm, BitVec.sub_add_cancel]
    have hbyte := hin (x - a).toNat hk
    obtain ⟨-, -, hlittle, hbig, -⟩ := byteOrderOfReads s a
    rw [hax] at hbyte
    rw [hbyte]
    cases hb : s.bigEndian a with
    | false => rw [if_neg Bool.false_ne_true, hlittle _ hk hb, hax]
    | true => rw [if_pos rfl, hbig _ hk hb, hax]

/-- Writing words that were read at the same addresses keeps memory. -/
theorem State.KeepsMemory.writeWords {s t : State} (h : s.KeepsMemory t) (hc : t.ctrl = s.ctrl)
    (hw : t.mem.wf = true) (a : Word) (n : Nat) : s.KeepsMemory (t.writeWords a (s.readWords a n)) := by
  induction n generalizing t a with
  | zero => exact h
  | succ n ih =>
    have hread : s.readWord a = t.readWord a := (State.readWord_of_bytes hc fun j _ => h _).symm
    rw [State.readWords, State.writeWords, hread]
    refine ih (fun x => ?_) (by simpa using hc) (State.writeWord_wf hw _ _) _
    rw [State.readByte_writeWord_readWord hw, h x]

theorem State.readSet_getElem (s : State) (a : Word) (k : Nat) (hk : k < 16) :
    (s.readSet a)[k] = s.readWord (a + BitVec.ofNat 32 (4 * k)) := by
  have h0 : a + BitVec.ofNat 32 (4 * 0) = a := BitVec.add_zero a
  interval_cases k
  · rw [h0]; rfl
  all_goals rfl

theorem State.readSet_toList (s : State) (a : Word) : (s.readSet a).toList = s.readWords a 16 := by
  rw [State.readWords_eq_map]
  refine List.ext_getElem (by simp) fun k h1 h2 => ?_
  have hk : k < 16 := by simpa using h1
  simp only [Vector.getElem_toList, s.readSet_getElem a k hk, List.getElem_map, List.getElem_range]

/-! The places of sets six to fifteen in internal data RAM (`10_state.md` R72; log 16). -/

theorem ramSlot_toNat {k : Nat} (h5 : 5 ≤ k) (h14 : k ≤ 14) :
    (ramSlot k).toNat = 1024 - 64 * (k - 4) := by
  have h400 : (0x400 : Word).toNat = 1024 := rfl
  rw [ramSlot, BitVec.toNat_sub, BitVec.toNat_ofNat, h400]
  omega

/-- An address in the data-RAM place of a position. -/
theorem ramSlot_add_toNat {k m : Nat} (h5 : 5 ≤ k) (h14 : k ≤ 14) (hm : m < 64) :
    (ramSlot k + BitVec.ofNat 32 m).toNat = 1024 - 64 * (k - 4) + m := by
  rw [BitVec.toNat_add, ramSlot_toNat h5 h14, BitVec.toNat_ofNat]
  omega

/-- The places of two positions do not meet. -/
theorem ramSlot_apart {j k m : Nat} (hj : 5 ≤ j) (hj14 : j ≤ 14) (hk : 5 ≤ k) (hk14 : k ≤ 14) (hne : j ≠ k)
    (hm : m < 64) : 64 ≤ (ramSlot j + BitVec.ofNat 32 m - ramSlot k).toNat := by
  rw [BitVec.toNat_sub, ramSlot_add_toNat hj hj14 hm, ramSlot_toNat hk hk14]
  omega

/-! Writing sets to data RAM. -/

theorem State.writeSlots_wf {s : State} (h : s.mem.wf = true) (k : Nat) (cs : List SavedSet) :
    (s.writeSlots k cs).mem.wf = true := by
  obtain ⟨m, hm, hw⟩ := State.writeSlots_eq cs s k
  rw [hm]
  exact hw h

theorem State.writeSlots_ctrl (s : State) (k : Nat) (cs : List SavedSet) :
    (s.writeSlots k cs).ctrl = s.ctrl := by
  obtain ⟨m, hm, -⟩ := State.writeSlots_eq cs s k
  rw [hm]

theorem State.writeSlots_append (s : State) (k : Nat) (cs ds : List SavedSet) :
    s.writeSlots k (cs ++ ds) = (s.writeSlots k cs).writeSlots (k + cs.length) ds := by
  induction cs generalizing s k with
  | nil => rfl
  | cons c cs ih =>
    have hk : k + (c :: cs).length = k + 1 + cs.length := by rw [List.length_cons]; omega
    rw [List.cons_append, State.writeSlots, State.writeSlots, hk]
    split <;> exact ih _ _

/-- Writing sets to data RAM leaves the bytes outside their places. -/
theorem State.readByte_writeSlots_outside {s : State} (h : s.mem.wf = true) {k : Nat}
    {cs : List SavedSet} {x : Word}
    (hx : ∀ j, 5 ≤ j → k ≤ j → j < k + cs.length → 64 ≤ (x - ramSlot j).toNat) :
    (s.writeSlots k cs).readByte x = s.readByte x := by
  induction cs generalizing s k with
  | nil => rfl
  | cons c cs ih =>
    rw [List.length_cons] at hx
    rw [State.writeSlots]
    split
    · exact ih h fun j h5 hk hj => hx j h5 (by omega) (by omega)
    · rw [ih (State.writeWords_wf h _ _) fun j h5 hk hj => hx j h5 (by omega) (by omega)]
      exact State.readByte_writeWords_outside h (by simpa using hx k (by omega) (by omega) (by omega))

/-- The words of a set that lies in data RAM are in its place. -/
theorem State.readWord_writeSlots {s : State} (h : s.mem.wf = true) {k i m : Nat} {cs : List SavedSet}
    (hlen : k + cs.length ≤ 15) (hi : i < cs.length) (h5 : 5 ≤ k + i) (hm : m < 16) :
    (s.writeSlots k cs).readWord (ramSlot (k + i) + BitVec.ofNat 32 (4 * m)) = cs[i].words[m] := by
  induction cs generalizing s k i with
  | nil => exact absurd hi (Nat.not_lt_zero i)
  | cons c cs ih =>
    rw [List.length_cons] at hlen hi
    rw [State.writeSlots]
    cases i with
    | succ i =>
      have hpos : k + (i + 1) = k + 1 + i := by omega
      rw [hpos, List.getElem_cons_succ]
      split
      · exact ih h (by omega) (by omega) (by omega)
      · exact ih (State.writeWords_wf h _ _) (by omega) (by omega) (by omega)
    | zero =>
      rw [if_neg (by omega), Nat.add_zero, List.getElem_cons_zero]
      have hw := State.writeWords_wf h (ramSlot k) c.words.toList
      refine (State.readWord_of_bytes (State.writeSlots_ctrl _ _ _) fun j hj => ?_).trans
        ((State.readWord_writeWords_inside h (by simp) (by simpa using hm)).trans (by simp))
      refine State.readByte_writeSlots_outside hw fun p hp5 hp hplt => ?_
      rw [BitVec.add_assoc, ← BitVec.ofNat_add]
      exact ramSlot_apart (by omega) (by omega) hp5 (by omega) (by omega) (by omega)

/-! The cached sets. -/

/-- The sets of the positions from k on: those in data RAM are read from there. -/
def State.setsFrom (s : State) (k : Nat) (r : List SavedSet) : List SavedSet :=
  (r.zipIdx k).map fun p => if p.2 < 5 then p.1 else { p.1 with words := s.readSet (ramSlot p.2) }

theorem State.cachedSets_eq (s : State) : s.cachedSets = s.setsFrom 0 s.rcache := rfl

theorem State.setsFrom_cons (s : State) (k : Nat) (c : SavedSet) (r : List SavedSet) :
    s.setsFrom k (c :: r) =
      (if k < 5 then c else { c with words := s.readSet (ramSlot k) }) :: s.setsFrom (k + 1) r := rfl

/-- Writing back the sets that were read from data RAM keeps memory. -/
theorem State.KeepsMemory.writeSlots {s t : State} (h : s.KeepsMemory t) (hc : t.ctrl = s.ctrl)
    (hw : t.mem.wf = true) (k : Nat) (r : List SavedSet) :
    s.KeepsMemory (t.writeSlots k (s.setsFrom k r)) := by
  induction r generalizing t k with
  | nil => exact h
  | cons c r ih =>
    rw [State.setsFrom_cons, State.writeSlots]
    split
    · exact ih h hc hw (k + 1)
    · have hset : ({ c with words := s.readSet (ramSlot k) } : SavedSet).words.toList =
          s.readWords (ramSlot k) 16 := s.readSet_toList _
      rw [hset]
      exact ih (h.writeWords hc hw _ _) (by simpa using hc) (State.writeWords_wf hw _ _) (k + 1)

/-- The sets that are made the cached ones are the cached ones. -/
theorem State.cachedSets_storeSets {s : State} (h : s.mem.wf = true) {cs : List SavedSet}
    (hlen : cs.length ≤ 15) : (s.storeSets cs).cachedSets = cs := by
  refine List.ext_getElem (by simp [State.storeSets]) fun i h1 h2 => ?_
  simp only [State.cachedSets, List.getElem_map, List.getElem_zipIdx, Nat.zero_add]
  split
  · rfl
  · have hwords : (s.storeSets cs).readSet (ramSlot i) = cs[i].words := by
      refine Vector.ext fun m hm => ?_
      rw [State.readSet_getElem _ _ m hm]
      have hread := State.readWord_writeSlots h (k := 0) (i := i) (by omega) h2 (by omega) hm
      rw [Nat.zero_add] at hread
      exact hread
    rw [hwords]
    rfl

/-! A new frame (`44_call_return.md` R402 to R404). -/

/-- With room on chip the current set joins the cached ones, and memory stays as it is. -/
theorem State.saveLocals_on_chip {s : State} (hroom : s.rcache.length < s.config.regcacheSets)
    (h5 : s.rcache.length < 5) (f : Word) :
    s.saveLocals f = { s with rcache := s.rcache ++ [⟨f, s.locals⟩] } := by
  rw [State.saveLocals, if_neg (by omega), State.cachedSets_few (by omega), State.storeSets,
    State.writeSlots_few _ _ _ (by simp; omega)]

/-- With room beyond the five sets on chip the current set goes to its place in data RAM. -/
theorem State.saveLocals_room {s : State} (hw : s.mem.wf = true)
    (hroom : s.rcache.length < s.config.regcacheSets) (h5 : 5 ≤ s.rcache.length) (f : Word) :
    ∃ t, s.KeepsMemory t ∧ t.ctrl = s.ctrl ∧ t.mem.wf = true ∧
      (s.saveLocals f).mem = (t.writeWords (ramSlot s.rcache.length) s.locals.toList).mem ∧
      (s.saveLocals f).rcache = s.cachedSets ++ [⟨f, s.locals⟩] := by
  refine ⟨s.writeSlots 0 s.cachedSets, State.KeepsMemory.writeSlots (fun _ => rfl) rfl hw 0 s.rcache,
    State.writeSlots_ctrl _ _ _, State.writeSlots_wf hw _ _, ?_, ?_⟩
  · rw [State.saveLocals, if_neg (by omega), State.storeSets, State.writeSlots_append, State.writeSlots,
      Nat.zero_add, State.cachedSets_length, if_neg (by omega)]
    rfl
  · rw [State.saveLocals, if_neg (by omega)]
    rfl

/-- What a new frame leaves of memory while the register cache has room. -/
theorem State.newFrame_memory {s : State} (hw : s.mem.wf = true)
    (hroom : s.rcache.length < s.config.regcacheSets) (rip nfp : Word) (p : Bool) (rt : BitVec 3) :
    (s.rcache.length < 5 → s.KeepsMemory (s.newFrame rip nfp p rt)) ∧
    (5 ≤ s.rcache.length →
      s.KeepsMemoryOutside (s.newFrame rip nfp p rt) (cacheSlot s.rcache.length) 64 ∧
      ∀ (k : Fin 16) (c : SavedSet), (s.newFrame rip nfp p rt).rcache.getLast? = some c →
        (s.newFrame rip nfp p rt).readWord
          (cacheSlot s.rcache.length + BitVec.ofNat 32 (4 * k.val)) = c.words.get k) := by
  refine ⟨fun h5 x => ?_, fun h5 => ?_⟩
  · have hmem : (s.newFrame rip nfp p rt).mem = s.mem := by
      change ((s.setReg 2 rip).saveLocals s.fp).mem = s.mem
      rw [State.saveLocals_on_chip (s := s.setReg 2 rip) hroom h5]
      rfl
    rw [State.readByte, hmem, State.readByte]
  · obtain ⟨t, hkeep, hctrl, htw, hmem, hsets⟩ := State.saveLocals_room (s := s.setReg 2 rip) hw hroom h5 s.fp
    have hc : (s.newFrame rip nfp p rt).ctrl = t.ctrl := by
      obtain ⟨m, r, ts, he, -⟩ := s.newFrame_eq rip nfp p rt
      rw [he, hctrl]
      rfl
    have hlen : 4 * (s.setReg 2 rip).locals.toList.length = 64 := by simp
    have hin (k : Fin 16) : (s.newFrame rip nfp p rt).readWord
        (cacheSlot s.rcache.length + BitVec.ofNat 32 (4 * k.val)) = (s.setReg 2 rip).locals.get k :=
      (State.readWord_congr (t := s.newFrame rip nfp p rt)
        (s := t.writeWords (ramSlot s.rcache.length) (s.setReg 2 rip).locals.toList)
        hmem (by simpa using hc) _).trans
        ((State.readWord_writeWords_inside htw (by omega) (by simp)).trans (by simp; rfl))
    refine ⟨fun x hx => ?_, fun k c hlast => ?_⟩
    · have hout := State.readByte_writeWords_outside htw (a := ramSlot s.rcache.length) (x := x)
        (ws := (s.setReg 2 rip).locals.toList) (by rw [hlen]; exact hx)
      rw [State.readByte, show (s.newFrame rip nfp p rt).mem = _ from hmem]
      exact hout.trans (hkeep x)
    · have hr : (s.newFrame rip nfp p rt).rcache =
          (s.setReg 2 rip).cachedSets ++ [⟨s.fp, (s.setReg 2 rip).locals⟩] := hsets
      rw [hr, List.getLast?_concat] at hlast
      rw [← Option.some.inj hlast]
      exact hin k

/-- The flag of a frame pointer is clear until a trace event sets it. -/
theorem putBit_frame (v : Word) (rt : BitVec 3) :
    putBit ((v &&& 0xFFFFFFF0) ||| rt.zeroExtend 32) 3 false = (v &&& 0xFFFFFFF0) ||| rt.zeroExtend 32 := by
  have hrt : ∀ rt : BitVec 3, rt.zeroExtend 32 &&& ~~~(1#32 <<< 3) = rt.zeroExtend 32 := by decide
  have hmask : (0xFFFFFFF0 : Word) &&& ~~~(1#32 <<< 3) = 0xFFFFFFF0 := by decide
  rw [putBit, if_neg Bool.false_ne_true, BitVec.and_or_distrib_right, BitVec.and_assoc, hmask, hrt]

/-- FP is g15, the last global register. -/
theorem State.fp_of_globals {s : State} {g : Vector Word 16} {v : Word} (h : s.globals = g.set 15 v) :
    s.fp = v := by
  simp [State.fp, State.getReg, h]

/-- The other global registers. -/
theorem State.getReg_of_globals {s t : State} {v : Word} (h : t.globals = s.globals.set 15 v)
    {n : RegNum} (h16 : 16 ≤ n.toNat) (h31 : n ≠ 31) : t.getReg n = s.getReg n := by
  have hne : n.toNat ≠ 31 := fun he => h31 (BitVec.eq_of_toNat_eq he)
  rw [State.getReg, State.getReg, dif_neg (by omega), dif_neg (by omega)]
  simp only [h]
  exact Vector.getElem_set_ne _ _ (by omega)

/-- A call action has entered its frame. -/
theorem State.newFrame_entered (s : State) (rip nfp target : Word) (rt : BitVec 3) :
    s.FrameEntered ((s.newFrame rip nfp false rt).goTo target) nfp rip
      ((s.fp &&& 0xFFFFFFF0) ||| rt.zeroExtend 32) target := by
  obtain ⟨m, r, ts, he, -, hl, -⟩ := s.newFrame_eq rip nfp false rt
  rw [he, putBit_frame]
  exact { ip := rfl, fp := State.fp_of_globals rfl, sp := rfl, pfp := rfl,
          globals := fun n h16 h31 => State.getReg_of_globals rfl h16 h31, saved := hl, depth := rfl }

/-- A call keeps AC, TC, the control state, and memory as far as the cache has room. -/
theorem State.newFrame_keeps (s : State) (rip nfp target : Word) (p : Bool) (rt : BitVec 3) :
    s.CallKeeps ((s.newFrame rip nfp p rt).goTo target) := by
  have hmem (hw : s.mem.wf = true) (hroom : s.rcache.length < s.config.regcacheSets) :=
    State.newFrame_memory hw hroom rip nfp p rt
  obtain ⟨m, r, ts, he, -⟩ := s.newFrame_eq rip nfp p rt
  rw [he] at hmem ⊢
  exact { ac := rfl, tc := rfl, control := ⟨rfl, rfl, rfl, rfl, rfl, rfl, rfl, rfl, rfl, rfl⟩,
          memory := fun _ hw hroom => ⟨(hmem hw hroom).1, fun h5 _ => (hmem hw hroom).2 h5⟩ }

/-- Before the frame was entered the registers were those of the caller. -/
theorem State.FrameEntered.of_eq {s u t : State} {frame link back target : Word}
    (h : u.FrameEntered t frame link back target) (hl : u.locals = s.locals)
    (hg : u.globals = s.globals) (hd : u.depth = s.depth) :
    s.FrameEntered t frame link back target := by
  have hreg (n : RegNum) : u.getReg n = s.getReg n := by
    rw [State.getReg, State.getReg, hl, hg]
  exact { ip := h.ip, fp := h.fp, sp := h.sp, pfp := h.pfp,
          globals := fun n h16 h31 => (h.globals n h16 h31).trans (hreg n),
          saved := by rw [h.saved, State.fp, State.fp, hreg, hl], depth := hd ▸ h.depth }

/-- Before the frame was entered AC, TC, the control state and, with no other agent acting, memory were
those of the caller. -/
theorem State.CallKeeps.of_eq {s u t : State} (h : u.CallKeeps t) (hac : u.ac = s.ac) (htc : u.tc = s.tc)
    (hctl : s.SameControl u) (hr : u.rcache = s.rcache)
    (hm : s.turns = [] → u.mem = s.mem ∧ u.turns = []) : s.CallKeeps t := by
  refine { ac := h.ac.trans hac, tc := h.tc.trans htc, control := hctl.trans h.control,
           memory := fun hq hw hroom => ?_ }
  obtain ⟨hmem, hturns⟩ := hm hq
  have hread (x : Word) : u.readByte x = s.readByte x := by rw [State.readByte, hmem, State.readByte]
  have hkept := h.memory hturns (hmem ▸ hw) (by rw [hr, hctl.config]; exact hroom)
  rw [hr, hctl.config] at hkept
  refine ⟨fun h5 x => (hkept.1 h5 x).trans (hread x), fun h5 h15 => ?_⟩
  obtain ⟨hout, hin⟩ := hkept.2 h5 h15
  exact ⟨fun x hx => (hout x hx).trans (hread x), hin⟩

/-! Call actions (R404, D32). -/

/-- A call action while no data breakpoint matches. -/
theorem Run.callAction_quiet {s : State} {r : Run} (hb : s.NoDataBreak) (hc : r.s.ctrl = s.ctrl)
    (hm : r.modes = s.tc) (hs : r.s.canSpill = true) (target : Word) (rt : BitVec 3) (base : Word) :
    r.callAction target rt base = .ok
      { r with
        s := (r.s.newFrame r.s.ip (roundUp16 base) (r.modes.getLsbD 3) rt).goTo target
        noted := r.noted ||| evCall } := by
  rw [Run.callAction]
  unfold State.canSpill at hs
  split
  · rfl
  · next f hf =>
    rw [hf] at hs
    rw [if_neg (by rintro ⟨he, hp⟩; simp [he, hp] at hs), Run.implicit_quiet hb hc hm]
    rfl

section
variable {r : Run} (hm : r.modes &&& 0xFE = 0)

include hm in
theorem Run.callAction_untraced (hs : r.s.canSpill = true) (target : Word) (rt : BitVec 3) (base : Word) :
    r.callAction target rt base = .ok
      { r with
        s := (r.s.newFrame r.s.ip (roundUp16 base) false rt).goTo target
        noted := r.noted ||| evCall } := by
  have h3 : r.modes.getLsbD 3 = false := mode_bit_off hm (by decide)
  rw [Run.callAction_quiet (s := { r.s with tc := r.modes }) (State.noDataBreak_of_modes hm) rfl rfl hs, h3]

theorem Run.callAction_unspillable (hs : r.s.canSpill = false) (target : Word) (rt : BitVec 3)
    (base : Word) : r.callAction target rt base = .error (.trap .typeMismatch) := by
  rcases r.callAction_cases target rt base with ⟨he, -⟩ | ⟨ht, -⟩
  · exact he
  · rw [hs] at ht; exact absurd ht Bool.false_ne_true

end

section
variable {s : State} (h : s.untraced = true)

include h

/-- A body that ends in a call action. -/
theorem runInstr_of_callAction {len : Word} {body : Run → Except Stop Run} {u : State} {noted : Word}
    {target base : Word} {rt : BitVec 3}
    (hb : body ⟨s.advance len, s.tc, s.te, 0, none, none⟩ =
      (⟨u, s.tc, s.te, noted, none, none⟩ : Run).callAction target rt base)
    (hs : u.canSpill = true) (hn : (noted ||| evCall) &&& 0x0F800000 = 0) :
    runInstr s len body = .next ((u.newFrame u.ip (roundUp16 base) false rt).goTo target) := by
  have hm := (s.untraced_iff.1 h).1
  rw [Run.callAction_untraced (r := ⟨u, s.tc, s.te, noted, none, none⟩) hm hs] at hb
  exact runInstr_untraced h
    (r := ⟨(u.newFrame u.ip (roundUp16 base) false rt).goTo target, s.tc, s.te, noted ||| evCall, none,
      none⟩) hb hm hn rfl rfl

/-- A local call from the state after the instruction. -/
theorem runInstr_callAction (hs : s.canSpill = true) (len target base : Word) :
    runInstr s len (fun r => r.callAction target 0 base) =
      .next (((s.advance len).newFrame (s.ip + len) (roundUp16 base) false 0).goTo target) :=
  runInstr_of_callAction h (u := s.advance len) (noted := 0) rfl hs (by decide)

theorem runInstr_callAction_unspillable (hs : s.canSpill = false) (len target base : Word) :
    runInstr s len (fun r => r.callAction target 0 base) = takeFault s s .typeMismatch (s.ip + len) :=
  runInstr_trap (by
    rw [State.begin_untraced h]
    exact Run.callAction_unspillable (r := ⟨s.advance len, s.tc, s.te, 0, none, none⟩) hs target 0 base)

omit h in
/-- The frame that a local call enters. -/
theorem State.localCall_enters (s : State) (len base target : Word) :
    let t := ((s.advance len).newFrame (s.ip + len) (roundUp16 base) false 0).goTo target
    s.FrameEntered t (roundUp16 base) (s.ip + len) (s.fp &&& 0xFFFFFFF0) target ∧ s.CallKeeps t ∧
      t.pctl = s.pctl := by
  intro t
  have hback : (s.fp &&& 0xFFFFFFF0) ||| (0 : BitVec 3).zeroExtend 32 = s.fp &&& 0xFFFFFFF0 :=
    BitVec.or_zero
  have hent := (s.advance len).newFrame_entered (s.ip + len) (roundUp16 base) target 0
  rw [show (s.advance len).fp = s.fp from rfl, hback] at hent
  refine ⟨hent.of_eq rfl rfl rfl, ?_, ?_⟩
  · exact ((s.advance len).newFrame_keeps _ _ _ _ _).of_eq rfl rfl
      ⟨rfl, rfl, rfl, rfl, rfl, rfl, rfl, rfl, rfl, rfl⟩ rfl fun hq => ⟨rfl, hq⟩
  · obtain ⟨m, r, ts, he, -⟩ := (s.advance len).newFrame_eq (s.ip + len) (roundUp16 base) false 0
    simp only [t, he]
    rfl

end

/-- Settles O38. -/
theorem callResults : Obligations.CallResults := by
  intro disp p efa s h frame enters
  rw [← ctrlOffset_eq_ofInt]
  refine ⟨fun hs => ⟨?_, ?_⟩, fun hs => ⟨?_, ?_⟩⟩ <;> unfold exec
  · exact ⟨_, runInstr_callAction h hs 4 _ s.sp, s.localCall_enters 4 s.sp _⟩
  · exact ⟨_, runInstr_callAction h hs efa.len _ s.sp, s.localCall_enters efa.len s.sp _⟩
  · exact runInstr_callAction_unspillable h hs 4 _ _
  · exact runInstr_callAction_unspillable h hs efa.len _ _

/-! A full register cache (R402; log 16). -/

theorem State.cachedSets_congr {s t : State} (hm : t.mem = s.mem) (hc : t.ctrl = s.ctrl)
    (hr : t.rcache = s.rcache) : t.cachedSets = s.cachedSets := by
  have hset (a : Word) : t.readSet a = s.readSet a := by
    simp only [State.readSet, State.readWord_congr hm hc]
  simp only [State.cachedSets, hr, hset]

/-- An address outside the data-RAM places of the first n positions. -/
theorem ramSlot_outside {x : Word} {n j : Nat} (h5 : 5 ≤ j) (hj : j < n) (hn : n ≤ 15)
    (hx : x.toNat + 64 * (n - 5) < 1024 ∨ 1024 ≤ x.toNat) : 64 ≤ (x - ramSlot j).toNat := by
  have hlt := x.isLt
  rw [BitVec.toNat_sub, ramSlot_toNat h5 (by omega)]
  omega

/-- Saving the current set in a full cache, with no other agent acting. -/
theorem State.saveLocals_full {s : State} (hfull : s.config.regcacheSets ≤ s.rcache.length)
    (hq : s.turns = []) {old : SavedSet} {rest : List SavedSet} (hc : s.cachedSets = old :: rest)
    (f : Word) : s.saveLocals f =
      (s.writeWords old.frame old.words.toList).storeSets (rest ++ [⟨f, s.locals⟩]) := by
  rw [State.saveLocals, if_pos hfull, hc]
  simp only [State.writeQuads_nil hq]

/-- Settles O39. -/
theorem spilledSet : Obligations.SpilledSet := by
  intro disp p s old rest h hw hq hc hfull h15 hs
  unfold exec
  refine ⟨_, runInstr_callAction h hs 4 _ s.sp, ?_⟩
  let u := (s.advance 4).setReg 2 (s.ip + 4)
  let v := u.writeWords old.frame old.words.toList
  let sets := rest ++ [(⟨s.fp, s.locals.set 2 (s.ip + 4)⟩ : SavedSet)]
  let t := ((s.advance 4).newFrame (s.ip + 4) (roundUp16 s.sp) false 0).goTo (s.ip + ctrlOffset disp)
  have hlen : sets.length = s.config.regcacheSets := by
    have hcount := congrArg List.length hc
    rw [State.cachedSets_length, List.length_cons] at hcount
    rw [List.length_append, List.length_singleton]
    omega
  have hsave : u.saveLocals s.fp = v.storeSets sets :=
    State.saveLocals_full (s := u) hfull.ge hq hc s.fp
  have hmem : t.mem = (v.writeSlots 0 sets).mem := by
    change (u.saveLocals s.fp).mem = (v.storeSets sets).mem
    rw [hsave]
  have hrc : t.rcache = sets := by
    change (u.saveLocals s.fp).rcache = (v.storeSets sets).rcache
    rw [hsave]
  have hctrl : t.ctrl = (v.writeSlots 0 sets).ctrl := by
    refine Eq.trans ?_ (State.writeSlots_ctrl v 0 sets).symm
    obtain ⟨m, r, ts, he, -⟩ := (s.advance 4).newFrame_eq (s.ip + 4) (roundUp16 s.sp) false 0
    simp only [t, he, v, State.writeWords_ctrl]
    rfl
  have hvw : v.mem.wf = true := State.writeWords_wf (s := u) hw _ _
  have hsets : t.cachedSets = sets :=
    (State.cachedSets_congr (s := v.storeSets sets) hmem hctrl hrc).trans
      (State.cachedSets_storeSets hvw (by omega))
  have hout {x : Word} (hx : ∀ j, 5 ≤ j → j < s.config.regcacheSets → 64 ≤ (x - ramSlot j).toNat) :
      t.readByte x = v.readByte x := by
    rw [State.readByte, hmem]
    exact State.readByte_writeSlots_outside hvw fun j h5 _ hj => hx j h5 (by omega)
  refine ⟨hsets, fun _ => hrc.trans hsets.symm, fun hframe k => ?_, fun x hx hram => ?_⟩
  · have hword : t.readWord (old.frame + BitVec.ofNat 32 (4 * k.val)) =
        v.readWord (old.frame + BitVec.ofNat 32 (4 * k.val)) := by
      refine State.readWord_of_bytes (hctrl.trans (State.writeSlots_ctrl _ _ _)) fun j hj =>
        hout fun i h5 hi => ?_
      have h16 := k.isLt
      refine ramSlot_outside h5 hi h15 (.inr ?_)
      rw [BitVec.add_assoc, ← BitVec.ofNat_add, BitVec.toNat_add, BitVec.toNat_ofNat]
      omega
    exact hword.trans ((State.readWord_writeWords_inside (s := u) hw (by simp) (by simp)).trans
      (by simp; rfl))
  · rw [hout fun j h5 hj => ramSlot_outside h5 hj h15 hram]
    exact State.readByte_writeWords_outside (s := u) hw (by simpa using hx)

/-! System calls (R405 to R408, R411). -/

theorem and_one_eq_ite (w : Word) : w &&& 1 = if w.getLsbD 0 then 1 else 0 := by
  refine BitVec.eq_of_getLsbD_eq fun j hj => ?_
  have hone : ∀ j : Fin 32, (1 : Word).getLsbD j.val = decide (j.val = 0) := by decide
  rw [BitVec.getLsbD_and, hone ⟨j, hj⟩]
  by_cases h0 : j = 0
  · subst h0
    cases w.getLsbD 0 <;> rfl
  · cases w.getLsbD 0
    · simp [h0]
    · simp [h0]

/-- PC with the mode bit set and the trace enable given. -/
theorem putBit_mode_te (w : Word) (m b : Bool) : putBit (putBit w 1 m) 0 b =
    (w &&& 0xFFFFFFFC) ||| (if m then 2 else 0) ||| (if b then 1 else 0) := by
  refine BitVec.eq_of_getLsbD_eq fun j hj => ?_
  obtain ⟨k, rfl⟩ : ∃ k : Fin 32, k.val = j := ⟨⟨j, hj⟩, rfl⟩
  simp only [putBit, apply_ite (BitVec.getLsbD · k.val), BitVec.getLsbD_or, BitVec.getLsbD_and,
    BitVec.getLsbD_not, hj, decide_true, Bool.true_and]
  generalize w.getLsbD k.val = x
  clear hj
  revert m b k x
  decide

theorem execCalls_length {s : State} {src : Src} (hu : s.canUseAll [(srcOperand src).one] = true)
    (hn : 259 < (s.value (srcOperand src) 0).toNat) :
    exec (.calls src) s = takeFault s s .length (s.ip + 4) :=
  (runChecked_of_canUse hu _).trans (runInstr_trap (if_pos hn))

theorem execCalls_callSystem {s : State} {src : Src} (hu : s.canUseAll [(srcOperand src).one] = true)
    (hn : (s.value (srcOperand src) 0).toNat ≤ 259) :
    exec (.calls src) s = runInstr s 4 fun r => r.callSystem (s.value (srcOperand src) 0) := by
  have hn' : ¬259 < (s.value (srcOperand src) 0).toNat := by omega
  refine (runChecked_of_canUse hu _).trans ?_
  simp only [if_neg hn']

/-- The entry of a procedure in the system-procedure table. -/
def State.systemEntry (s : State) (n : Word) : Word := s.readWord (s.procedureEntry n)

/-- The state that a supervisor call enters its frame from: other agents have had their turn, the mode is
supervisor and PC.te is the trace-control bit. -/
def State.supervised (s : State) (len : Word) : State :=
  ((s.advance len).turn).setPctl
    (putBit (putBit s.pctl 1 true) 0 ((s.turn.readWord (s.tables.sptBase + 12)).getLsbD 0))

theorem putBit_em_set (w : Word) : (putBit w 1 true).getLsbD 1 = true := by
  rw [putBit, if_pos rfl, BitVec.getLsbD_or]
  exact Bool.or_true _

theorem State.canSpill_of_em {s : State} (h : s.em = true) : s.canSpill = true := by
  rw [State.canSpill, h]
  split <;> rfl

section
variable {s : State} (hb : s.NoDataBreak)

include hb

/-- What the processor reads for an instruction that has begun notes nothing. -/
theorem Run.implicit_begun (noted a : Word) (k : Nat) :
    (⟨s.advance 4, s.tc, s.te, noted, none, none⟩ : Run).implicit a k =
      ⟨s.advance 4, s.tc, s.te, noted, none, none⟩ := Run.implicit_quiet hb rfl rfl a k

/-- A system call whose entry asks for no supervisor call. -/
theorem Run.callSystem_local (n : Word) (he : (s.systemEntry n).getLsbD 1 = false) :
    Run.callSystem ⟨s.advance 4, s.tc, s.te, 0, none, none⟩ n =
      (⟨s.advance 4, s.tc, s.te, 0, none, none⟩ : Run).callAction (alignTarget (s.systemEntry n)) 0
        s.sp := by
  have he' : ((s.advance 4).readWord ((s.advance 4).procedureEntry n)).getLsbD 1 = false := he
  simp only [Run.callSystem, Run.implicit_begun hb, he', Bool.false_eq_true, if_false]
  rfl

/-- In supervisor mode a supervisor call is a local call. -/
theorem Run.callSystem_supervisor (n : Word) (he : (s.systemEntry n).getLsbD 1 = true) (hem : s.em = true) :
    Run.callSystem ⟨s.advance 4, s.tc, s.te, 0, none, none⟩ n =
      (⟨s.advance 4, s.tc, s.te, 0 ||| evSupervisor, none, none⟩ : Run).callAction
        (alignTarget (s.systemEntry n)) 0 s.sp := by
  have he' : ((s.advance 4).readWord ((s.advance 4).procedureEntry n)).getLsbD 1 = true := he
  have hem' : (s.advance 4).em = true := hem
  simp only [Run.callSystem, Run.implicit_begun hb, he', if_true, Run.supervisorCall, Run.note_s, hem']
  rfl

/-- From user mode it switches the mode and the stack. -/
theorem Run.callSystem_user (n : Word) (he : (s.systemEntry n).getLsbD 1 = true) (hem : s.em = false) :
    Run.callSystem ⟨s.advance 4, s.tc, s.te, 0, none, none⟩ n =
      (⟨s.supervised 4, s.tc, s.te, 0 ||| evSupervisor, none, none⟩ : Run).callAction
        (alignTarget (s.systemEntry n)) (if s.te then 3 else 2)
        (s.turn.readWord (s.tables.sptBase + 12) &&& 0xFFFFFFFC) := by
  have he' : ((s.advance 4).readWord ((s.advance 4).procedureEntry n)).getLsbD 1 = true := he
  have hem' : (s.advance 4).em = false := hem
  have hread (a : Word) : (s.advance 4).turn.readWord a = s.turn.readWord a := by
    rw [State.turn_advance]
    rfl
  have hpctl : (s.advance 4).turn.pctl = s.pctl := State.turn_pctl _
  simp only [Run.callSystem, Run.implicit_begun hb, he', if_true, Run.supervisorCall, Run.note_s, hem',
    Bool.false_eq_true, if_false, hread]
  simp only [Run.note, Run.implicit_begun hb, Run.modify, State.supervised, hpctl]
  rfl

end

/-- The frame that a supervisor call from user mode enters. -/
theorem State.supervisorCall_enters (s : State) (base target : Word) (rt : BitVec 3) :
    let u := s.supervised 4
    let t := (u.newFrame u.ip (roundUp16 base) false rt).goTo target
    s.FrameEntered t (roundUp16 base) (s.ip + 4) ((s.fp &&& 0xFFFFFFF0) ||| rt.zeroExtend 32) target ∧
      s.CallKeeps t ∧ t.pctl = u.pctl := by
  intro u t
  have hlocals : u.locals = s.locals := State.turn_locals (s.advance 4)
  have hglobals : u.globals = s.globals := State.turn_globals (s.advance 4)
  have hdepth : u.depth = s.depth := State.turn_depth (s.advance 4)
  have hip : u.ip = s.ip + 4 := State.turn_ip (s.advance 4)
  have hfp : u.fp = s.fp := by rw [State.fp, State.fp, State.getReg, State.getReg, hlocals, hglobals]
  have hctl : s.SameControl u := by
    obtain ⟨m, ts, ht⟩ := (s.advance 4).turn_eq
    simp only [u, State.supervised, ht]
    exact ⟨rfl, rfl, rfl, rfl, rfl, rfl, rfl, rfl, rfl, rfl⟩
  have hquiet (hq : s.turns = []) : u.mem = s.mem ∧ u.turns = [] := by
    simp only [u, State.supervised, State.turn_nil (s := s.advance 4) hq]
    exact ⟨rfl, hq⟩
  have hent := u.newFrame_entered u.ip (roundUp16 base) target rt
  rw [hfp, hip] at hent
  refine ⟨?_, ?_, ?_⟩
  · simp only [t, hip]
    exact hent.of_eq hlocals hglobals hdepth
  · exact (u.newFrame_keeps u.ip (roundUp16 base) target false rt).of_eq (State.turn_ac (s.advance 4))
      (State.turn_tc (s.advance 4)) hctl (State.turn_rcache (s.advance 4)) hquiet
  · obtain ⟨m, r, ts, he, -⟩ := u.newFrame_eq u.ip (roundUp16 base) false rt
    simp only [t, he]
    rfl

/-- Settles O40. -/
theorem systemCallResults : Obligations.SystemCallResults := by
  intro src s h hu n entry ssp enters
  have hb := State.noDataBreak_of_modes (s.untraced_iff.1 h).1
  have hlocal : enters s.sp 0 s.pctl (((s.advance 4).newFrame (s.ip + 4) (roundUp16 s.sp) false 0).goTo
        (alignTarget (s.systemEntry n))) := by
    obtain ⟨h1, h2, h3⟩ := s.localCall_enters 4 s.sp (alignTarget (s.systemEntry n))
    refine ⟨?_, h2, h3⟩
    rw [show (s.fp &&& 0xFFFFFFF0) ||| 0 = s.fp &&& 0xFFFFFFF0 from BitVec.or_zero]
    exact h1
  refine ⟨fun hn => execCalls_length hu hn, fun hn hkind hs => ?_, fun hn he hs => ?_, fun hn he hem => ?_⟩
  · rw [execCalls_callSystem hu hn]
    cases he : (s.systemEntry n).getLsbD 1 with
    | false =>
      exact ⟨_, runInstr_of_callAction h (Run.callSystem_local hb n he) hs (by decide), hlocal⟩
    | true =>
      have hem : s.em = true := hkind.resolve_left (ne_false_of_eq_true he)
      exact ⟨_, runInstr_of_callAction h (Run.callSystem_supervisor hb n he hem) hs (by decide), hlocal⟩
  · rw [execCalls_callSystem hu hn]
    refine runInstr_trap ?_
    rw [State.begin_untraced h, Run.callSystem_local hb n he]
    exact Run.callAction_unspillable (r := ⟨s.advance 4, s.tc, s.te, 0, none, none⟩) hs _ _ _
  · rw [execCalls_callSystem hu hn]
    have hspill : (s.supervised 4).canSpill = true := State.canSpill_of_em
      ((putBit_em (by decide) _).trans (putBit_em_set s.pctl))
    refine ⟨_, runInstr_of_callAction h (Run.callSystem_user hb n he hem) hspill (by decide), ?_⟩
    obtain ⟨h1, h2, h3⟩ := s.supervisorCall_enters (ssp &&& 0xFFFFFFFC) (alignTarget (s.systemEntry n))
      (if s.te then 3 else 2)
    refine ⟨?_, h2, h3.trans ?_⟩
    · cases hte : s.te <;> simp only [hte] at h1 ⊢ <;> exact h1
    · exact (putBit_mode_te _ _ _).trans (by rw [and_one_eq_ite]; rfl)

end Sys2Proof.Machine
end

section
/-! Returns and `flushreg` (O41, O42), and the round trip of a call and its return (O43). -/

namespace Sys2Proof.Machine

/-! Leaving a frame (`44_call_return.md` R412). -/

/-- The local registers that a return restores: the newest cached set, or the save area of the frame
returned to. -/
def State.returnSet (s : State) : Vector Word 16 :=
  match s.cachedSets.getLast? with
  | some c => c.words
  | none => s.readSet (s.pfp &&& 0xFFFFFFF0)

/-- The state part of `Run.leaveFrame`. -/
def State.leave (s : State) : State :=
  let u := (s.setReg 31 (s.pfp &&& 0xFFFFFFF0)).restoreLocals (s.pfp &&& 0xFFFFFFF0)
  ({ u with depth := u.depth - 1 } : State).goTo (alignTarget (u.getReg 2))

theorem Run.leaveFrame_quiet {s : State} {r : Run} (hb : s.NoDataBreak) (hc : r.s.ctrl = s.ctrl)
    (hm : r.modes = s.tc) : r.leaveFrame = { r with s := r.s.leave, noted := r.noted ||| evReturn } := by
  simp only [Run.leaveFrame, Run.implicit_quiet hb hc hm, ite_self]
  rfl

/-- With no other agent acting, all that leaving a frame changes. -/
theorem State.leave_eq {s : State} (hq : s.turns = []) : s.leave =
    { s with
      locals := s.returnSet
      globals := s.globals.set 15 (s.pfp &&& 0xFFFFFFF0)
      rcache := s.rcache.dropLast
      depth := s.depth - 1
      ip := alignTarget s.returnSet[2]
      icache := { s.icache with fetchingLocked := false } } := by
  have hcached : (s.setReg 31 (s.pfp &&& 0xFFFFFFF0)).cachedSets = s.cachedSets := rfl
  have hfew : s.cachedSets.getLast? = none → s.rcache = [] := fun hn => by
    have hlen := congrArg List.length (List.getLast?_eq_none_iff.1 hn)
    rw [State.cachedSets_length] at hlen
    exact List.length_eq_zero_iff.1 hlen
  unfold State.leave State.returnSet State.restoreLocals
  rw [hcached]
  cases hc : s.cachedSets.getLast? with
  | some c => rfl
  | none =>
    have hdrop : s.rcache.dropLast = s.rcache := by rw [hfew hc]; rfl
    rw [State.reloadSet_nil (s := s.setReg 31 (s.pfp &&& 0xFFFFFFF0)) hq, hdrop]
    rfl

/-- What every return type leaves: the frame, the caller's registers, the cache and the depth. -/
structure State.Returned (s t : State) : Prop where
  ip : t.ip = alignTarget s.returnSet[2]
  locals : t.locals = s.returnSet
  globals : t.globals = s.globals.set 15 (s.pfp &&& 0xFFFFFFF0)
  rcache : t.rcache = s.rcache.dropLast
  depth : t.depth = s.depth - 1
  mem : t.mem = s.mem
  turns : t.turns = s.turns
  control : s.SameControl t
  tc : t.tc = s.tc

/-- A return goes on from a state in which the instruction pointer, AC, PC and the service of an NMI have
changed. -/
theorem State.leave_returned {s : State} (hq : s.turns = []) (ip ac pctl : Word) (tr : TraceState)
    (nmi : Option Int) :
    s.Returned { s with ip := ip, ac := ac, pctl := pctl, trace := tr,
                        intc := { s.intc with nmiDepth := nmi } }.leave := by
  rw [State.leave_eq (s := { s with ip := ip, ac := ac, pctl := pctl, trace := tr,
                                    intc := { s.intc with nmiDepth := nmi } }) hq]
  exact ⟨rfl, rfl, rfl, rfl, rfl, rfl, rfl, ⟨rfl, rfl, rfl, rfl, rfl, rfl, rfl, rfl, rfl, rfl⟩, rfl⟩

theorem State.Returned.setPctl {s t : State} (h : s.Returned t) (w : Word) : s.Returned (t.setPctl w) :=
  ⟨h.ip, h.locals, h.globals, h.rcache, h.depth, h.mem, h.turns,
    ⟨h.control.ipnd, h.control.imsk, h.control.swPriority, h.control.dma, h.control.ctrl,
      h.control.tables, h.control.config, h.control.mode, h.control.image, h.control.locked⟩, h.tc⟩

theorem State.leave_ac {s : State} (hq : s.turns = []) : s.leave.ac = s.ac := by rw [State.leave_eq hq]

theorem State.leave_pctl {s : State} (hq : s.turns = []) : s.leave.pctl = s.pctl := by
  rw [State.leave_eq hq]

/-! `ret` while no data breakpoint matches (R412, R413). -/

/-- The record of an interrupt or a fault gives AC and, in supervisor mode, PC. -/
theorem Run.restoreControls_quiet {s : State} {r : Run} (hb : s.NoDataBreak) (hc : r.s.ctrl = s.ctrl)
    (hm : r.modes = s.tc) : r.restoreControls =
      { r with
        s := if r.s.em then ({ r.s with ac := r.s.readWord (r.s.fp - 12) } : State).turn
          else { r.s with ac := r.s.readWord (r.s.fp - 12) }
        late := if r.s.em then some (r.s.turn.readWord (r.s.fp - 16)) else r.late } := by
  have hacc : (r.modify fun t => { t with ac := r.s.readWord (r.s.fp - 12) }).implicit (r.s.fp - 16) 4 =
      r.modify fun t => { t with ac := r.s.readWord (r.s.fp - 12) } :=
    Run.implicit_quiet (r := r.modify fun t => { t with ac := r.s.readWord (r.s.fp - 12) }) hb hc hm _ _
  simp only [Run.restoreControls, Run.implicit_quiet hb hc hm, hacc]
  split <;> rfl

/-- Where a run with nothing to signal ends: a return that restores PC does so last. -/
def Run.restored (r : Run) : State :=
  match r.late with
  | none => r.s
  | some w => r.s.setPctl w

theorem runInstr_untraced_late {s : State} (h : s.untraced = true) {len : Word}
    {body : Run → Except Stop Run} {r : Run}
    (hb : body ⟨s.advance len, s.tc, s.te, 0, none, none⟩ = .ok r) (hm : r.modes &&& 0xFE = 0)
    (hn : r.noted &&& 0x0F800000 = 0) (hp : r.post = none) : runInstr s len body = .next r.restored := by
  have he : r.events = 0 := Run.events_of_no_mode hm hn
  have hsig : r.signalled s = r.restored := by
    rw [Run.signalled, he, Run.restored]
    cases r.late <;> rfl
  simp only [runInstr, State.begin_untraced h, hb, Run.finish, hp, hsig]

theorem execRet_untraced {s : State} (h : s.untraced = true) :
    exec .ret s = runInstr s 4 Run.returnAction := by
  obtain ⟨hm, htc, hte⟩ := s.untraced_iff.1 h
  have hdue : s.prereturnDue = false := by
    rw [State.prereturnDue, State.effectiveModes_untraced h, mode_bit_off hm (by decide), Bool.and_false]
  refine Eq.trans ?_ (State.runReturn_eq htc hte)
  unfold exec execRet
  rw [hdue]
  rfl

/-- The return type is in the low three bits of PFP. -/
theorem and_seven_toNat (w : Word) : (w &&& 7).toNat = (w.extractLsb' 0 3).toNat := by
  have h7 : (7 : Word).toNat = 2 ^ 3 - 1 := rfl
  rw [BitVec.toNat_and, h7, Nat.and_two_pow_sub_one_eq_mod, BitVec.extractLsb'_toNat, Nat.shiftRight_zero]

/-! The body of `ret` by return type, from the state after the instruction is fetched. -/

/-- The end of the service of an NMI is all that `endNmi` changes. -/
theorem State.endNmi_eq (s : State) :
    ∃ nmi, s.endNmi = { s with intc := { s.intc with nmiDepth := nmi } } := by
  unfold State.endNmi
  split
  · exact ⟨none, rfl⟩
  · exact ⟨s.intc.nmiDepth, rfl⟩

section
variable {s : State} (hb : s.NoDataBreak)

/-- The run at the start of `ret`. -/
def State.retRun (s : State) : Run := ⟨s.advance 4, s.tc, s.te, 0, none, none⟩

include hb in
theorem Run.returnAction_local (hk : (s.pfp &&& 7).toNat = 0) :
    s.retRun.returnAction = .ok { s.retRun with s := (s.advance 4).leave, noted := 0 ||| evReturn } := by
  have hk' : (s.retRun.s.pfp.extractLsb' 0 3).toNat = 0 := (and_seven_toNat s.pfp).symm.trans hk
  rw [Run.returnAction, hk']
  exact congrArg Except.ok (Run.leaveFrame_quiet hb rfl rfl)

/-- AC and, in supervisor mode, PC of the record. -/
def State.recordRun (s : State) : Run :=
  { s.retRun with
    s := if s.em then ({ s.advance 4 with ac := s.readWord (s.fp - 12) } : State).turn
      else { s.advance 4 with ac := s.readWord (s.fp - 12) }
    late := if s.em then some (s.turn.readWord (s.fp - 16)) else none }

theorem State.recordRun_ctrl (s : State) : s.recordRun.s.ctrl = s.ctrl := by
  rw [State.recordRun]
  split
  · exact State.turn_ctrl _
  · rfl

/-- With no other agent acting. -/
theorem State.recordRun_nil (hq : s.turns = []) : s.recordRun =
    { s.retRun with
      s := { s.advance 4 with ac := s.readWord (s.fp - 12) }
      late := if s.em then some (s.readWord (s.fp - 16)) else none } := by
  rw [State.recordRun, State.turn_nil (s := { s.advance 4 with ac := s.readWord (s.fp - 12) }) hq, ite_self,
    State.turn_nil hq]

include hb in
theorem Run.restoreControls_ret : s.retRun.restoreControls = s.recordRun := by
  have hread (a : Word) : (s.advance 4).turn.readWord a = s.turn.readWord a := by
    rw [State.turn_advance]
    rfl
  rw [Run.restoreControls_quiet (r := s.retRun) hb rfl rfl]
  exact congrArg (fun w => ({ s.recordRun with late := if s.em then some w else none } : Run))
    (hread (s.fp - 16))

include hb in
theorem Run.returnAction_fault (hk : (s.pfp &&& 7).toNat = 1) :
    s.retRun.returnAction =
      .ok { s.recordRun with s := s.recordRun.s.leave, noted := 0 ||| evReturn } := by
  have hk' : (s.retRun.s.pfp.extractLsb' 0 3).toNat = 1 := (and_seven_toNat s.pfp).symm.trans hk
  rw [Run.returnAction, hk']
  simp only [Run.restoreControls_ret hb]
  exact congrArg Except.ok (Run.leaveFrame_quiet (r := s.recordRun) hb s.recordRun_ctrl rfl)

include hb in
theorem Run.returnAction_interrupt (hk : (s.pfp &&& 7).toNat = 7) :
    s.retRun.returnAction =
      .ok { s.recordRun with s := s.recordRun.s.endNmi.leave, noted := 0 ||| evReturn } := by
  have hk' : (s.retRun.s.pfp.extractLsb' 0 3).toNat = 7 := (and_seven_toNat s.pfp).symm.trans hk
  obtain ⟨nmi, hnmi⟩ := s.recordRun.s.endNmi_eq
  have hctrl : s.recordRun.s.endNmi.ctrl = s.ctrl := by
    rw [hnmi]
    exact s.recordRun_ctrl
  rw [Run.returnAction, hk']
  simp only [Run.restoreControls_ret hb]
  exact congrArg Except.ok (Run.leaveFrame_quiet (r := s.recordRun.modify State.endNmi) hb hctrl rfl)

include hb in
/-- A return from a supervisor call goes back to user mode. -/
theorem Run.returnAction_supervisor (hk : (s.pfp &&& 7).toNat = 2 ∨ (s.pfp &&& 7).toNat = 3) :
    s.retRun.returnAction =
      .ok { s.retRun with
            s := ((s.advance 4).setPctl (putBit (putBit s.pctl 1 false) 0 (s.pfp.getLsbD 0))).leave
            noted := 0 ||| evReturn ||| evSupervisor } := by
  have hbit (k : Nat) (h : (s.pfp &&& 7).toNat = k) : s.pfp.getLsbD 0 = k.testBit 0 := by
    rw [← h, ← BitVec.getLsbD, BitVec.getLsbD_and]
    exact (Bool.and_true _).symm
  have hleave (v : Word) : ((s.retRun.modify fun t => t.setPctl v).leaveFrame.note evSupervisor) =
      { s.retRun with s := ((s.advance 4).setPctl v).leave, noted := 0 ||| evReturn ||| evSupervisor } := by
    rw [Run.leaveFrame_quiet (r := s.retRun.modify fun t => t.setPctl v) hb rfl rfl]
    rfl
  rcases hk with hk | hk
  · have hk' : (s.retRun.s.pfp.extractLsb' 0 3).toNat = 2 := (and_seven_toNat s.pfp).symm.trans hk
    rw [Run.returnAction, hk', hbit 2 hk]
    exact congrArg Except.ok (hleave _)
  · have hk' : (s.retRun.s.pfp.extractLsb' 0 3).toNat = 3 := (and_seven_toNat s.pfp).symm.trans hk
    rw [Run.returnAction, hk', hbit 3 hk]
    exact congrArg Except.ok (hleave _)

end

/-- PC after a return from a supervisor call. -/
theorem userMode_pctl (w pfp : Word) :
    putBit (putBit w 1 false) 0 (pfp.getLsbD 0) = (w &&& 0xFFFFFFFC) ||| (pfp &&& 1) := by
  rw [putBit_mode_te, and_one_eq_ite]
  exact congrArg (· ||| _) BitVec.or_zero

/-- `ret` by return type: what it leaves, AC and PC. -/
theorem execRet_returns {s : State} (h : s.untraced = true) (hq : s.turns = [])
    (hk : (s.pfp &&& 7).toNat ≤ 3 ∨ (s.pfp &&& 7).toNat = 7) :
    completesWith (exec .ret s) fun t => s.Returned t ∧
      t.ac = (if (s.pfp &&& 7).toNat = 1 ∨ (s.pfp &&& 7).toNat = 7 then s.readWord (s.fp - 12)
        else s.ac) ∧
      t.pctl = (if ((s.pfp &&& 7).toNat = 1 ∨ (s.pfp &&& 7).toNat = 7) ∧ s.em = true then
          s.readWord (s.fp - 16)
        else if (s.pfp &&& 7).toNat = 2 ∨ (s.pfp &&& 7).toNat = 3 then
          (s.pctl &&& 0xFFFFFFFC) ||| (s.pfp &&& 1)
        else s.pctl) := by
  have hm := (s.untraced_iff.1 h).1
  have hb := State.noDataBreak_of_modes hm
  have hnil := s.recordRun_nil hq
  have hleave (ac pctl : Word) (tr : TraceState) (nmi : Option Int) :=
    State.leave_returned hq (s.ip + 4) ac pctl tr nmi
  have hquiet : (0 ||| evReturn) &&& 0x0F800000 = 0 := by decide
  have hsup : (0 ||| evReturn ||| evSupervisor) &&& 0x0F800000 = 0 := by decide
  have hrun {r : Run} (hb : s.retRun.returnAction = .ok r) (hm : r.modes &&& 0xFE = 0)
      (hn : r.noted &&& 0x0F800000 = 0) (hp : r.post = none) : exec .ret s = .next r.restored :=
    (execRet_untraced h).trans (runInstr_untraced_late h hb hm hn hp)
  have hrecord (nmi : Option Int) {r : Run}
      (hs : r.s = ({ s with ip := s.ip + 4, ac := s.readWord (s.fp - 12), pctl := s.pctl, trace := s.trace,
                            intc := { s.intc with nmiDepth := nmi } } : State).leave)
      (hl : r.late = if s.em then some (s.readWord (s.fp - 16)) else none) :
      s.Returned r.restored ∧ r.restored.ac = s.readWord (s.fp - 12) ∧
        r.restored.pctl = if s.em = true then s.readWord (s.fp - 16) else s.pctl := by
    have hret := hleave (s.readWord (s.fp - 12)) s.pctl s.trace nmi
    rw [← hs] at hret
    have hac : r.s.ac = s.readWord (s.fp - 12) :=
      (congrArg (fun t : State => t.ac) hs).trans (State.leave_ac hq)
    have hpctl : r.s.pctl = s.pctl :=
      (congrArg (fun t : State => t.pctl) hs).trans (State.leave_pctl hq)
    rw [Run.restored, hl]
    cases s.em with
    | true => exact ⟨hret.setPctl _, hac, rfl⟩
    | false => exact ⟨hret, hac, hpctl⟩
  obtain h0 | h1 | h7 | h23 : (s.pfp &&& 7).toNat = 0 ∨ (s.pfp &&& 7).toNat = 1 ∨
      (s.pfp &&& 7).toNat = 7 ∨ (s.pfp &&& 7).toNat = 2 ∨ (s.pfp &&& 7).toNat = 3 := by omega
  · rw [h0]
    exact ⟨_, hrun (Run.returnAction_local hb h0) hm hquiet rfl,
      hleave s.ac s.pctl s.trace s.intc.nmiDepth, State.leave_ac hq, State.leave_pctl hq⟩
  · obtain ⟨hret, hac, hpctl⟩ := hrecord s.intc.nmiDepth
      (r := { s.recordRun with s := s.recordRun.s.leave, noted := 0 ||| evReturn })
      (congrArg State.leave (congrArg Run.s hnil)) (congrArg Run.late hnil)
    refine ⟨_, hrun (Run.returnAction_fault hb h1) hm hquiet rfl, hret, ?_, ?_⟩
    · rw [h1, if_pos (.inl rfl), hac]
    · rw [h1, hpctl]
      cases s.em <;> rfl
  · obtain ⟨nmi, hnmi⟩ := s.recordRun.s.endNmi_eq
    obtain ⟨hret, hac, hpctl⟩ := hrecord nmi
      (r := { s.recordRun with s := s.recordRun.s.endNmi.leave, noted := 0 ||| evReturn })
      (congrArg State.leave (hnmi.trans (congrArg
        (fun u : State => { u with intc := { u.intc with nmiDepth := nmi } }) (congrArg Run.s hnil)))) (congrArg Run.late hnil)
    refine ⟨_, hrun (Run.returnAction_interrupt hb h7) hm hquiet rfl, hret, ?_, ?_⟩
    · rw [h7, if_pos (.inr rfl), hac]
    · rw [h7, hpctl]
      cases s.em <;> rfl
  · have hpc := userMode_pctl s.pctl s.pfp
    refine ⟨_, hrun (Run.returnAction_supervisor hb h23) hm hsup rfl,
      hleave s.ac _ { s.trace with teDelay := { left := 0, old := false } } s.intc.nmiDepth, ?_, ?_⟩
    · rw [if_neg (by omega)]
      exact State.leave_ac hq
    · rw [if_neg (by omega), if_pos h23, ← hpc]
      exact State.leave_pctl hq

/-! The set that a return restores. -/

theorem State.returnSet_of_empty {s : State} (h : s.rcache = []) :
    s.returnSet = s.readSet (s.pfp &&& 0xFFFFFFF0) := by
  have hnone : s.cachedSets.getLast? = none := by
    rw [State.cachedSets, h]
    rfl
  rw [State.returnSet, hnone]

theorem State.returnSet_on_chip {s : State} {c : SavedSet} (hc : s.rcache.getLast? = some c)
    (h5 : s.rcache.length ≤ 5) : s.returnSet = c.words := by
  rw [State.returnSet, State.cachedSets_few h5, hc]

theorem State.returnSet_in_ram {s : State} (h5 : 5 < s.rcache.length) :
    s.returnSet = s.readSet (ramSlot (s.rcache.length - 1)) := by
  have hlast : s.cachedSets.getLast? = some
      { s.rcache[s.rcache.length - 1] with words := s.readSet (ramSlot (s.rcache.length - 1)) } := by
    have hlt : s.rcache.length - 1 < s.cachedSets.length := by rw [State.cachedSets_length]; omega
    rw [List.getLast?_eq_getElem?, State.cachedSets_length, List.getElem?_eq_getElem hlt]
    simp only [State.cachedSets, List.getElem_map, List.getElem_zipIdx, Nat.zero_add]
    rw [if_neg (by omega)]
  rw [State.returnSet, hlast]

/-- Settles O41. -/
theorem returnResults : Obligations.ReturnResults := by
  intro s h hq frame kind
  refine ⟨fun hk => ?_, fun hk => ?_⟩
  · have hk' : ((s.advance 4).pfp.extractLsb' 0 3).toNat = kind := (and_seven_toNat s.pfp).symm
    rw [execRet_untraced h]
    refine runInstr_trap ?_
    rw [State.begin_untraced h, Run.returnAction, hk']
    obtain hk | hk | hk := hk <;> rw [hk] <;> rfl
  · obtain ⟨t, hnext, hret, hac, hpctl⟩ := execRet_returns h hq hk
    refine ⟨t, hnext, State.fp_of_globals hret.globals, ?_, hret.rcache, fun hr k => ?_,
      fun c hc h5 => hret.locals.trans (State.returnSet_on_chip hc h5), fun h5 k => ?_,
      fun n h16 h31 => State.getReg_of_globals hret.globals h16 h31, fun x => ?_, hret.control, hret.tc,
      hac, hpctl⟩
    · rw [hret.ip, ← hret.locals]
      rfl
    · rw [hret.locals, State.returnSet_of_empty hr]
      exact State.readSet_getElem _ _ _ k.isLt
    · rw [hret.locals, State.returnSet_in_ram h5]
      exact State.readSet_getElem _ _ _ k.isLt
    · rw [State.readByte, hret.mem, State.readByte]

/-! `flushreg` (R416). -/

/-- The cached sets have the frames of the cache. -/
theorem State.cachedSets_frames (s : State) :
    s.cachedSets.map SavedSet.frame = s.rcache.map SavedSet.frame := by
  refine List.ext_getElem (by simp) fun i h1 h2 => ?_
  simp only [State.cachedSets, List.getElem_map, List.getElem_zipIdx]
  split <;> rfl

theorem State.cachedSets_any (s : State) (p : Word → Bool) :
    (s.rcache.any fun c => p c.frame) = true ↔ ∃ c ∈ s.cachedSets, p c.frame = true := by
  have hany (l : List SavedSet) : (l.any fun c => p c.frame) = (l.map SavedSet.frame).any p := by
    rw [List.any_map]
    rfl
  rw [hany, ← s.cachedSets_frames, ← hany, List.any_eq_true]

theorem Run.noteFrames_untraced {r : Run} (hm : r.modes &&& 0xFE = 0) (cs : List SavedSet) :
    r.noteFrames cs = r := by
  induction cs with
  | nil => rfl
  | cons c cs ih => rw [Run.noteFrames, Run.implicit_untraced hm, ih]

/-- With no other agent acting, the sets are written one after the other. -/
theorem State.flushSets_cons {s : State} (hq : s.turns = []) (c : SavedSet) (cs : List SavedSet) :
    s.flushSets (c :: cs) = (s.writeWords c.frame c.words.toList).flushSets cs := by
  rw [State.flushSets, State.writeQuads_nil hq]

/-- Writing the sets changes memory only. -/
theorem State.flushSets_mem {s : State} (hq : s.turns = []) (cs : List SavedSet) :
    ∃ m, s.flushSets cs = { s with mem := m } := by
  induction cs generalizing s with
  | nil => exact ⟨s.mem, rfl⟩
  | cons c cs ih =>
    obtain ⟨m, hm⟩ := s.writeWords_eq c.frame c.words.toList
    obtain ⟨m', hm'⟩ := ih (s := s.writeWords c.frame c.words.toList) (by rw [hm]; exact hq)
    exact ⟨m', by rw [State.flushSets_cons hq, hm', hm]⟩

theorem State.readByte_flushSets_outside {s : State} (hw : s.mem.wf = true) (hq : s.turns = [])
    {cs : List SavedSet} {x : Word} (hx : ∀ c ∈ cs, 64 ≤ (x - c.frame).toNat) :
    (s.flushSets cs).readByte x = s.readByte x := by
  induction cs generalizing s with
  | nil => rfl
  | cons c cs ih =>
    rw [State.flushSets_cons hq, ih (State.writeWords_wf hw _ _) (by simpa using hq)
      fun d hd => hx d (List.mem_cons_of_mem c hd)]
    exact State.readByte_writeWords_outside hw (by simpa using hx c List.mem_cons_self)

/-- A byte of a frame is outside a frame that does not overlap it. -/
theorem frames_apart {a b : Word} (hab : 64 ≤ (b - a).toNat) (hba : 64 ≤ (a - b).toNat) {m : Nat}
    (hm : m < 64) : 64 ≤ (a + BitVec.ofNat 32 m - b).toNat := by
  have ha := a.isLt
  have hb := b.isLt
  rw [BitVec.toNat_sub] at hab hba
  rw [BitVec.toNat_sub, BitVec.toNat_add, BitVec.toNat_ofNat]
  omega

theorem State.readWord_flushSets {s : State} (hw : s.mem.wf = true) (hq : s.turns = [])
    {cs : List SavedSet} (hapart : cs.Pairwise fun c d => 64 ≤ (d.frame - c.frame).toNat ∧
      64 ≤ (c.frame - d.frame).toNat) {c : SavedSet} (hc : c ∈ cs) {k : Nat} (hk : k < 16) :
    (s.flushSets cs).readWord (c.frame + BitVec.ofNat 32 (4 * k)) = c.words[k] := by
  induction cs generalizing s with
  | nil => exact absurd hc List.not_mem_nil
  | cons d ds ih =>
    obtain ⟨hd, hds⟩ := List.pairwise_cons.1 hapart
    have hw' := State.writeWords_wf hw d.frame d.words.toList
    have hq' : (s.writeWords d.frame d.words.toList).turns = [] := by simpa using hq
    rw [State.flushSets_cons hq]
    rcases List.mem_cons.1 hc with rfl | hc
    · refine (State.readWord_of_bytes ?_ fun j hj => State.readByte_flushSets_outside hw' hq' fun e he => ?_).trans
        ((State.readWord_writeWords_inside hw (by simp) (by simpa using hk)).trans (by simp))
      · obtain ⟨m, hm⟩ := State.flushSets_mem hq' ds
        rw [hm]
      · rw [BitVec.add_assoc, ← BitVec.ofNat_add]
        exact frames_apart (hd e he).1 (hd e he).2 (by omega)
    · exact ih hw' hq' hds hc

/-- Settles O42. -/
theorem flushResults : Obligations.FlushResults := by
  intro s
  refine ⟨fun h hw hq hmay => ?_, fun hem hprot => ?_⟩
  · have hm := (s.untraced_iff.1 h).1
    have hallow : ¬(s.em = false ∧ (s.rcache.any fun c => s.protectedRange c.frame 64) = true) := by
      rintro ⟨hem, hany⟩
      obtain ⟨c, hc, hp⟩ := (s.cachedSets_any fun a => s.protectedRange a 64).1 hany
      rw [(hmay.resolve_left (by rw [hem]; exact Bool.false_ne_true)) c hc] at hp
      exact Bool.false_ne_true hp
    have hnext : exec .flushreg s =
        .next { (s.advance 4).flushSets s.cachedSets with rcache := [] } := by
      unfold exec execFlushreg
      simp only [if_neg hallow]
      refine runInstr_untraced h
        (r := ⟨{ (s.advance 4).flushSets s.cachedSets with rcache := [] }, s.tc, s.te, 0, none, none⟩) ?_ hm
        BitVec.zero_and rfl rfl
      rw [Run.noteFrames_untraced hm]
      rfl
    obtain ⟨m, hmem⟩ := State.flushSets_mem (s := s.advance 4) hq s.cachedSets
    have hread (x : Word) (hx : ∀ c ∈ s.cachedSets, 64 ≤ (x - c.frame).toNat) :=
      State.readByte_flushSets_outside (s := s.advance 4) hw hq hx
    have hwords := State.readWord_flushSets (s := s.advance 4) hw hq (cs := s.cachedSets)
    rw [hmem] at hnext hread hwords
    exact ⟨_, hnext, rfl, rfl, rfl, rfl, rfl, rfl, rfl, ⟨rfl, rfl, rfl, rfl, rfl, rfl, rfl, rfl, rfl, rfl⟩,
      fun hapart c hc k => hwords hapart hc k.isLt, hread⟩
  · have hcond : s.em = false ∧ (s.rcache.any fun c => s.protectedRange c.frame 64) = true :=
      ⟨hem, (s.cachedSets_any fun a => s.protectedRange a 64).2 hprot⟩
    unfold exec execFlushreg
    refine runInstr_trap ?_
    exact if_pos hcond

/-! A call and the return from it. -/

/-- Entering a frame with room in the cache on chip. -/
theorem State.newFrame_on_chip {s : State} (h5 : s.rcache.length < 5)
    (hroom : s.rcache.length < s.config.regcacheSets) (rip nfp : Word) (p : Bool) (rt : BitVec 3) :
    s.newFrame rip nfp p rt =
      { s with
        rcache := s.rcache ++ [⟨s.fp, s.locals.set 2 rip⟩]
        locals := newLocals (putBit ((s.fp &&& 0xFFFFFFF0) ||| rt.zeroExtend 32) 3 p) (nfp + 64) s.draws
        globals := s.globals.set 15 nfp
        depth := s.depth + 1
        draws := s.draws + 16
        icache := { s.icache with fetchingLocked := false } } := by
  have hset : s.setReg 2 rip = { s with locals := s.locals.set 2 rip } := rfl
  simp only [State.newFrame, State.saveLocals_on_chip (s := s.setReg 2 rip) hroom h5]
  rw [hset]

/-- What the return from a frame finds, where the frame was entered with room in the cache on chip. -/
structure State.Entered (s t : State) (link : Word) (rt : BitVec 3) : Prop where
  untraced : t.untraced = true
  turns : t.turns = []
  pfp : t.pfp = (s.fp &&& 0xFFFFFFF0) ||| rt.zeroExtend 32
  globals : ∃ nfp, t.globals = s.globals.set 15 nfp
  rcache : t.rcache = s.rcache ++ [⟨s.fp, s.locals.set 2 link⟩]
  depth : t.depth = s.depth + 1

section
variable {s t : State} {link : Word} {rt : BitVec 3}

/-- The saved set is what the return restores. -/
theorem State.Entered.returnSet (h : s.Entered t link rt) (h5 : s.rcache.length < 5) :
    t.returnSet = s.locals.set 2 link :=
  State.returnSet_on_chip (c := ⟨s.fp, s.locals.set 2 link⟩) (by rw [h.rcache, List.getLast?_concat])
    (by rw [h.rcache, List.length_append, List.length_singleton]; omega)

theorem State.Entered.pfp_kind (h : s.Entered t link rt) : t.pfp &&& 7 = rt.zeroExtend 32 := by
  have hkind := Sys2Proof.Machine.pfp_kind s.fp rt false
  rwa [putBit_frame, ← h.pfp] at hkind

/-- An aligned frame pointer is found again in PFP. -/
theorem State.Entered.pfp_frame (h : s.Entered t link rt) (hfp : s.fp &&& 15 = 0) :
    t.pfp &&& 0xFFFFFFF0 = s.fp := by
  have hrt : ∀ rt : BitVec 3, rt.zeroExtend 32 &&& (0xFFFFFFF0 : Word) = 0#32 := by decide
  have hmask : (0xFFFFFFF0 : Word) &&& 0xFFFFFFF0 = 0xFFFFFFF0 := BitVec.and_self
  have hsplit : (15 : Word) ||| 0xFFFFFFF0 = BitVec.allOnes 32 := by decide
  rw [h.pfp, BitVec.and_or_distrib_right, hrt, BitVec.or_zero, BitVec.and_assoc, hmask]
  calc s.fp &&& 0xFFFFFFF0 = 0#32 ||| (s.fp &&& 0xFFFFFFF0) := BitVec.zero_or.symm
    _ = (s.fp &&& 15) ||| (s.fp &&& 0xFFFFFFF0) := by rw [hfp]; rfl
    _ = s.fp := by rw [← BitVec.and_or_distrib_left, hsplit, BitVec.and_allOnes]

/-- The return restores the caller. -/
theorem State.Entered.returned {u : State} (h : s.Entered t link rt) (h5 : s.rcache.length < 5)
    (hfp : s.fp &&& 15 = 0) (hu : t.Returned u) :
    u.ip = alignTarget link ∧ u.locals = s.locals.set 2 link ∧ u.globals = s.globals ∧
      u.rcache = s.rcache ∧ u.depth = s.depth := by
  have hset := h.returnSet h5
  refine ⟨?_, hu.locals.trans hset, ?_, ?_, ?_⟩
  · have h2 : t.returnSet[2] = link := by rw [hset]; exact Vector.getElem_set_self _
    rw [hu.ip, h2]
  · obtain ⟨nfp, hg⟩ := h.globals
    rw [hu.globals, hg, h.pfp_frame hfp]
    refine Vector.ext fun i hi => ?_
    rw [Vector.getElem_set, Vector.getElem_set]
    split
    · next hi15 => subst hi15; rfl
    · rfl
  · rw [hu.rcache, h.rcache, List.dropLast_concat]
  · rw [hu.depth, h.depth]
    exact Int.add_sub_cancel _ _

end

/-- With room in the cache no call has to spill. -/
theorem State.canSpill_of_room {s : State} (hroom : s.rcache.length < s.config.regcacheSets) :
    s.canSpill = true := by
  rw [State.canSpill, State.spillFrame, if_neg (by omega)]

section
variable {s : State} (h : s.untraced = true) (hq : s.turns = []) (h5 : s.rcache.length < 5)
  (hroom : s.rcache.length < s.config.regcacheSets)

include h hq h5 hroom

theorem State.localCall_entered (len nfp target : Word) :
    let t := ((s.advance len).newFrame (s.ip + len) nfp false 0).goTo target
    s.Entered t (s.ip + len) 0 ∧ t.mem = s.mem ∧ t.ac = s.ac ∧ t.pctl = s.pctl := by
  rw [State.newFrame_on_chip (s := s.advance len) h5 hroom, putBit_frame]
  exact ⟨⟨h, hq, rfl, ⟨nfp, rfl⟩, rfl, rfl⟩, rfl, rfl, rfl⟩

theorem State.supervisorCall_entered (nfp target : Word) (rt : BitVec 3) :
    let t := ((s.supervised 4).newFrame (s.supervised 4).ip nfp false rt).goTo target
    s.Entered t (s.ip + 4) rt ∧ t.mem = s.mem ∧ t.ac = s.ac ∧ t.pctl = (s.supervised 4).pctl := by
  obtain ⟨hm, htc, -⟩ := s.untraced_iff.1 h
  have hturn : (s.advance 4).turn = s.advance 4 := State.turn_nil (s := s.advance 4) hq
  have hu : s.supervised 4 = (s.advance 4).setPctl (s.supervised 4).pctl := by
    rw [State.supervised, hturn]
    rfl
  generalize (s.supervised 4).pctl = w at hu ⊢
  rw [hu, State.newFrame_on_chip (s := (s.advance 4).setPctl w) h5 hroom, putBit_frame]
  have huntraced : ((s.advance 4).setPctl w).untraced = true :=
    (State.untraced_iff _).2 ⟨hm, htc, rfl⟩
  exact ⟨⟨huntraced, hq, rfl, ⟨nfp, rfl⟩, rfl, rfl⟩, rfl, rfl, rfl⟩

end

/-- PC from its two low bits. -/
theorem pctl_eq (w : Word) : w = (w &&& 0xFFFFFFFC) ||| (if w.getLsbD 1 then 2 else 0) |||
    (if w.getLsbD 0 then 1 else 0) := by
  refine BitVec.eq_of_getLsbD_eq fun j hj => ?_
  simp only [BitVec.getLsbD_or, BitVec.getLsbD_and, apply_ite (BitVec.getLsbD · j)]
  by_cases h0 : j = 0
  · subst h0
    cases w.getLsbD 0 <;> cases w.getLsbD 1 <;> rfl
  by_cases h1 : j = 1
  · subst h1
    cases w.getLsbD 0 <;> cases w.getLsbD 1 <;> rfl
  · have hbits : ∀ k : Fin 32, k.val ≠ 0 → k.val ≠ 1 → (0xFFFFFFFC : Word).getLsbD k.val = true ∧
        (2 : Word).getLsbD k.val = false ∧ (1 : Word).getLsbD k.val = false ∧
        (0 : Word).getLsbD k.val = false := by decide
    obtain ⟨hC, h2, h1, h0⟩ := hbits ⟨j, hj⟩ h0 h1
    simp only [hC, h2, h1, h0, Bool.and_true, ite_self, Bool.or_false]

/-- Going back to user mode gives the PC before the call. -/
theorem supervisorReturn_pctl {s : State} (hem : s.em = false) (b : Bool) :
    (putBit (putBit s.pctl 1 true) 0 b &&& 0xFFFFFFFC) |||
      ((if s.te then 3 else 2 : BitVec 3).zeroExtend 32 &&& 1) = s.pctl := by
  have h2 : (2 : Word) &&& 0xFFFFFFFC = 0#32 := by decide
  have hb : (if b then 1 else 0 : Word) &&& 0xFFFFFFFC = 0#32 := by cases b <;> decide
  have hrt : (if s.te then 3 else 2 : BitVec 3).zeroExtend 32 &&& (1 : Word) = if s.te then 1 else 0 := by
    cases s.te <;> decide
  have hpc := pctl_eq s.pctl
  rw [show s.pctl.getLsbD 1 = false from hem] at hpc
  rw [putBit_mode_te, if_pos rfl, BitVec.and_or_distrib_right, BitVec.and_or_distrib_right, h2, hb, hrt,
    BitVec.or_zero, BitVec.or_zero, BitVec.and_assoc, BitVec.and_self]
  exact (congrArg (· ||| _) BitVec.or_zero.symm).trans hpc.symm

/-- `ret` in the frame of a call. -/
theorem State.Entered.execRet {s t : State} {link : Word} {rt : BitVec 3} (h : s.Entered t link rt)
    (hmem : t.mem = s.mem) (hac : t.ac = s.ac) (h5 : s.rcache.length < 5) (hfp : s.fp &&& 15 = 0)
    (hlink : link.extractLsb' 0 2 = 0) (hk : rt = 0 ∨ rt = 2 ∨ rt = 3) :
    completesWith (exec .ret t) fun u =>
      (u.ip = link ∧ u.locals = s.locals.set 2 link ∧ u.globals = s.globals ∧ u.rcache = s.rcache ∧
        u.depth = s.depth ∧ s.KeepsMemory u) ∧ u.ac = s.ac ∧
      u.pctl = if rt = 0 then t.pctl else (t.pctl &&& 0xFFFFFFFC) ||| (rt.zeroExtend 32 &&& 1) := by
  have hlow : t.pfp &&& 1 = rt.zeroExtend 32 &&& 1 := by
    rw [← h.pfp_kind, BitVec.and_assoc]
    rfl
  have hkind : (t.pfp &&& 7).toNat = rt.toNat := by
    rw [h.pfp_kind]
    exact BitVec.toNat_setWidth_of_le (by decide)
  have hrt : rt.toNat = 0 ∧ rt = 0 ∨ (rt.toNat = 2 ∨ rt.toNat = 3) ∧ rt ≠ 0 := by
    rcases hk with rfl | rfl | rfl <;> decide
  obtain ⟨u, hnext, hret, huac, hpctl⟩ := execRet_returns h.untraced h.turns (by omega)
  obtain ⟨hip, hlocals, hglobals, hrcache, hdepth⟩ := h.returned h5 hfp hret
  rw [alignTarget_of_aligned ((and_three_eq_zero_iff link).2 hlink)] at hip
  refine ⟨u, hnext, ⟨hip, hlocals, hglobals, hrcache, hdepth, fun x => ?_⟩, ?_, ?_⟩
  · rw [State.readByte, hret.mem, hmem, State.readByte]
  · rw [huac, if_neg (by omega), hac]
  · rw [hpctl, if_neg (by omega), hkind, hlow]
    rcases hrt with ⟨h0, rfl⟩ | ⟨h23, hne⟩
    · rfl
    · rw [if_pos h23, if_neg hne]

/-- Settles O43. -/
theorem callThenReturn : Obligations.CallThenReturn := by
  intro disp p efa src s t h hq h5 hroom hfp hip
  have hs := State.canSpill_of_room hroom
  have hb := State.noDataBreak_of_modes (s.untraced_iff.1 h).1
  have hip' : s.ip.extractLsb' 0 2 = 0 := (and_three_eq_zero_iff s.ip).1 hip
  have hlocal (len nfp target : Word) (hlen : len.extractLsb' 0 2 = 0) {out : Host.Outcome State Fault Refusal}
      (hout : out = .next (((s.advance len).newFrame (s.ip + len) nfp false 0).goTo target))
      (hnext : out = .next t) : completesWith (exec .ret t) fun u =>
        u.ip = s.ip + len ∧ u.locals = s.locals.set 2 (s.ip + len) ∧ u.globals = s.globals ∧
        u.rcache = s.rcache ∧ u.depth = s.depth ∧ u.ac = s.ac ∧ u.pctl = s.pctl ∧
        s.KeepsMemory u := by
    obtain rfl := next_inj hout hnext
    obtain ⟨hent, hmem, htac, hpc⟩ := s.localCall_entered h hq h5 hroom len nfp target
    obtain ⟨u, hu, ⟨h1, h2, h3, h4, h6, h7⟩, hac, hpctl⟩ :=
      hent.execRet hmem htac h5 hfp (aligned_add hip' hlen) (.inl rfl)
    exact ⟨u, hu, h1, h2, h3, h4, h6, hac, hpctl.trans hpc, h7⟩
  have hfour : (4 : Word).extractLsb' 0 2 = 0 := by decide
  simp only [List.forall_mem_cons, List.not_mem_nil, false_implies, implies_true, and_true]
  refine ⟨fun _ hnext => ?call, fun _ hnext => ?callx, fun hcalls hnext => ?calls⟩
  case call => exact hlocal 4 _ _ hfour (runInstr_callAction h hs 4 _ s.sp) hnext
  case callx => exact hlocal efa.len _ _ (Efa.len_aligned efa) (runInstr_callAction h hs efa.len _ s.sp) hnext
  case calls =>
    obtain ⟨hu, hn⟩ := hcalls trivial
    rw [execCalls_callSystem hu hn] at hnext
    cases he : (s.systemEntry (s.value (srcOperand src) 0)).getLsbD 1 with
    | false =>
      exact hlocal 4 _ _ hfour
        (runInstr_of_callAction h (Run.callSystem_local hb _ he) hs (by decide)) hnext
    | true =>
      cases hem : s.em with
      | true =>
        exact hlocal 4 _ _ hfour
          (runInstr_of_callAction h (Run.callSystem_supervisor hb _ he hem) hs (by decide)) hnext
      | false =>
        have hspill : (s.supervised 4).canSpill = true := State.canSpill_of_em
          ((putBit_em (by decide) _).trans (putBit_em_set s.pctl))
        obtain rfl := next_inj
          (runInstr_of_callAction h (Run.callSystem_user hb _ he hem) hspill (by decide)) hnext
        obtain ⟨hent, hmem, htac, hpc⟩ := s.supervisorCall_entered h hq h5 hroom
          (roundUp16 (s.turn.readWord (s.tables.sptBase + 12) &&& 0xFFFFFFFC))
          (alignTarget (s.systemEntry (s.value (srcOperand src) 0))) (if s.te then 3 else 2)
        have hne : (if s.te then 3 else 2 : BitVec 3) ≠ 0 := by cases s.te <;> decide
        obtain ⟨u, hu, ⟨h1, h2, h3, h4, h6, h7⟩, hac, hpctl⟩ :=
          hent.execRet hmem htac h5 hfp (aligned_add hip' hfour) (by cases s.te <;> simp)
        rw [if_neg hne, hpc] at hpctl
        exact ⟨u, hu, h1, h2, h3, h4, h6, hac, hpctl.trans (supervisorReturn_pctl hem _), h7⟩

end Sys2Proof.Machine
end

section
/-! Taking faults and interrupts: O52, O53, and the return from their handlers, O54. -/

namespace Sys2Proof.Machine

/-! Events of an entry, and PC after it. -/

/-- No call event passes with call trace off. -/
theorem callEvent_gate {w : Word} (h : w.getLsbD 3 = false) : evCall &&& eventGate w = 0 := by
  refine BitVec.eq_of_getLsbD_eq fun j hj => ?_
  have hall : ∀ j : Fin 32, evCall.getLsbD j.val = decide (j.val = 19) := by decide
  have hev : evCall.getLsbD j = decide (j = 19) := hall ⟨j, hj⟩
  refine Eq.trans ?_ BitVec.getLsbD_zero.symm
  rw [BitVec.getLsbD_and, hev]
  by_cases hj19 : j = 19
  · have hbrk : (0x0F800000 : Word).getLsbD 19 = false := by decide
    have hlow : (decide (19 < 32) && !decide (19 < 16)) = true := by decide
    have hgate : (eventGate w).getLsbD 19 = false := by
      rw [eventGate, BitVec.getLsbD_or, hbrk, Bool.or_false, BitVec.getLsbD_shiftLeft, hlow, Bool.true_and,
        BitVec.getLsbD_and, show 19 - 16 = 3 from rfl, h, Bool.false_and]
    rw [hj19, hgate, Bool.and_false]
  · rw [decide_eq_false hj19, Bool.false_and]

/-- PC of a handler called in the mode of the fault. -/
theorem faultPctl_same (w : Word) (p : Prop) [Decidable p] :
    (if p then putBit (putBit w 10 false) 0 false else putBit w 10 false) =
      (if p then w &&& 0xFFFFFFFE else w) &&& 0xFFFFFBFF := by
  have h10 : ~~~(1#32 <<< 10) = (0xFFFFFBFF : Word) := by decide
  have h0 : ~~~(1#32 <<< 0) = (0xFFFFFFFE : Word) := by decide
  simp only [putBit, Bool.false_eq_true, if_false, h10, h0]
  split
  · rw [BitVec.and_assoc, BitVec.and_assoc, BitVec.and_comm (0xFFFFFBFF : Word)]
  · rfl

/-- PC of a handler called through a supervisor entry. -/
theorem faultPctl_super (w : Word) (b : Bool) :
    putBit (putBit (putBit w 10 false) 1 true) 0 b =
      (w &&& 0xFFFFFBFC) ||| 2 ||| (if b then 1 else 0) := by
  have h10 : ~~~(1#32 <<< 10) &&& (0xFFFFFFFC : Word) = 0xFFFFFBFC := by decide
  rw [putBit_mode_te, if_pos rfl]
  simp only [putBit, Bool.false_eq_true, if_false, BitVec.and_assoc, h10]

/-! Fault entries (`61_faults.md` R534 to R537). -/

/-- The state that a fault entry gives with call trace off. -/
theorem State.enterFault_untraced {s : State} (h3 : s.tc.getLsbD 3 = false) {c : FaultCode} {a rip : Word}
    {target : Word} {kind : CallKind} (ht : s.faultTarget c = some (target, kind)) :
    s.enterFault c a rip = .ok
      { ((((s.afterTables kind).newFrame rip ((s.afterTables kind).faultFrame kind) false 1).turn.writeFaultRecord
          ((s.afterTables kind).faultFrame kind) s.pctl s.ac c a).setPctl
          ((s.afterTables kind).faultPctl c kind)) with ip := target } := by
  have htc (u : State) (hu : u.tc = s.tc) (te : Bool) : u.signal (evCall &&& eventGate u.tc) te a = u := by
    rw [callEvent_gate (hu ▸ h3), State.signal_zero]
  have hkeep : ((((s.afterTables kind).newFrame rip ((s.afterTables kind).faultFrame kind) false
      1).turn.writeFaultRecord ((s.afterTables kind).faultFrame kind) s.pctl s.ac c a).setPctl
        ((s.afterTables kind).faultPctl c kind)).tc = s.tc := by
    obtain ⟨m0, ts0, h0, -⟩ := s.afterTables_eq kind
    obtain ⟨m1, r, ts1, h1, -⟩ :=
      (s.afterTables kind).newFrame_eq rip ((s.afterTables kind).faultFrame kind) false 1
    obtain ⟨m2, h2, -⟩ := ((s.afterTables kind).newFrame rip ((s.afterTables kind).faultFrame kind) false
      1).turn.writeFaultRecord_eq ((s.afterTables kind).faultFrame kind) s.pctl s.ac c a
    rw [State.setPctl, h2]
    simp only [State.turn_tc, h1]
    rw [h0]
  rw [State.enterFault, ht]
  simp only [h3, htc _ hkeep]

/-- What follows the entry of a frame leaves its registers, but for the mask in r3 (R517). -/
theorem State.FrameEntered.congr_reg {s t u : State} {frame link back target : Word}
    (h : s.FrameEntered u frame link back target) (hi : t.ip = u.ip)
    (hreg : ∀ n : RegNum, n ≠ 3 → t.getReg n = u.getReg n) (hr : t.rcache = u.rcache)
    (hd : t.depth = u.depth) : s.FrameEntered t frame link back target :=
  { ip := hi.trans h.ip, fp := (hreg 31 (by decide)).trans h.fp, sp := (hreg 1 (by decide)).trans h.sp,
    pfp := (hreg 0 (by decide)).trans h.pfp,
    globals := fun n h16 h31 =>
      (hreg n fun h3 => absurd h16 (by rw [h3]; decide)).trans (h.globals n h16 h31),
    saved := by rw [hr, h.saved], depth := hd.trans h.depth }

theorem State.FrameEntered.congr {s t u : State} {frame link back target : Word}
    (h : s.FrameEntered u frame link back target) (hi : t.ip = u.ip) (hl : t.locals = u.locals)
    (hg : t.globals = u.globals) (hr : t.rcache = u.rcache) (hd : t.depth = u.depth) :
    s.FrameEntered t frame link back target :=
  h.congr_reg hi (fun n _ => by rw [State.getReg, State.getReg, hl, hg]) hr hd

/-- All that a fault entry with call trace off comes to. -/
theorem State.enterFault_ok {s : State} (hw : s.mem.wf = true) (h3 : s.tc.getLsbD 3 = false)
    {c : FaultCode} {target : Word} {kind : CallKind} (ht : s.faultTarget c = some (target, kind))
    (a rip : Word) :
    ∃ t, s.enterFault c a rip = .ok t ∧
      s.FrameEntered t ((s.afterTables kind).faultFrame kind) rip ((s.fp &&& 0xFFFFFFF0) ||| 1) target ∧
      t.pctl = (s.afterTables kind).faultPctl c kind ∧ t.ac = s.ac ∧ t.tc = s.tc ∧ s.SameControl t ∧
      t.HasFaultRecord t.fp s.pctl s.ac c a := by
  refine ⟨_, State.enterFault_untraced h3 ht, ?_, ?_, ?_, ?_, ?_,
    State.enterFault_hasFaultRecord hw (State.enterFault_untraced h3 ht)⟩
  all_goals
    obtain ⟨m0, ts0, h0, -⟩ := s.afterTables_eq kind
    generalize hnfp : (s.afterTables kind).faultFrame kind = nfp
    have hent := (s.afterTables kind).newFrame_entered rip nfp target 1
    obtain ⟨m1, r, ts1, h1, -⟩ := (s.afterTables kind).newFrame_eq rip nfp false 1
    generalize (s.afterTables kind).newFrame rip nfp false 1 = u at hent h1 ⊢
    obtain ⟨m2, h2, -⟩ := u.turn.writeFaultRecord_eq nfp s.pctl s.ac c a
    obtain ⟨m3, ts3, h3⟩ := u.turn_eq
    rw [h2, h3]
  · have hback : (s.afterTables kind).fp = s.fp := State.fp_congr (by rw [h0])
    rw [hback] at hent
    exact (hent.of_eq (by rw [h0]) (by rw [h0]) (by rw [h0])).congr rfl rfl rfl rfl rfl
  · rfl
  · rw [h1, h0]; rfl
  · rw [h1, h0]; rfl
  · rw [h1, h0]; exact ⟨rfl, rfl, rfl, rfl, rfl, rfl, rfl, rfl, rfl, rfl⟩

/-- Settles O52. -/
theorem faultEntry : Obligations.FaultEntry := by
  intro s c a rip hw h3 e spe ssp same super enters
  have hsame (kind : CallKind) (hk : kind ≠ .systemSupervisor) (u : State) (hu : u.pctl = s.pctl) :
      u.faultPctl c kind = same := by
    rw [State.faultPctl, if_neg hk, hu]
    exact faultPctl_same s.pctl _
  have hframe {target stack : Word} {kind : CallKind} {pc : Word} (ht : s.faultTarget c = some (alignTarget target, kind))
      (hst : (s.afterTables kind).faultStack kind = stack)
      (hpc : (s.afterTables kind).faultPctl c kind = pc) : enters target stack pc := by
    obtain ⟨t, hnext, hent, hpctl, hac, -, hctl, hrec⟩ := State.enterFault_ok hw h3 ht a rip
    rw [State.faultFrame, hst] at hent
    rw [hent.fp] at hrec
    exact ⟨t, hnext, hent, hpctl.trans hpc, hac, hctl, hrec.pc, hrec.ac, hrec.code, hrec.ip⟩
  have htables : ∀ kind, (s.afterTables kind).sp = s.sp ∧ (s.afterTables kind).pctl = s.pctl := fun kind => by
    obtain ⟨m, ts, h, -⟩ := s.afterTables_eq kind
    rw [h]
    exact ⟨rfl, rfl⟩
  refine ⟨fun he => ?localCall, fun he hn => ⟨fun hs => ?systemLocal, fun hs => ?supervisor⟩, fun he hn => ?number⟩
  case localCall =>
    have ht : s.faultTarget c = some (alignTarget e, .localCall) := if_pos he
    exact hframe ht rfl (hsame .localCall nofun s rfl)
  case number =>
    have ht : s.faultTarget c = none :=
      (if_neg (ne_false_of_eq_true he)).trans (if_pos hn)
    rw [State.enterFault, ht]
  all_goals
    have ht : s.faultTarget c =
        some (alignTarget spe, if spe.getLsbD 1 then .systemSupervisor else .systemLocal) :=
      (if_neg (ne_false_of_eq_true he)).trans (if_neg (not_lt.2 hn))
    rw [hs] at ht
  case systemLocal =>
    exact hframe ht (htables .systemLocal).1 (hsame .systemLocal nofun _ (htables .systemLocal).2)
  case supervisor =>
    obtain ⟨hsp, hpctl⟩ := htables .systemSupervisor
    have htab : (s.afterTables .systemSupervisor).tables = s.tables := by
      obtain ⟨m, ts, h, -⟩ := s.afterTables_eq .systemSupervisor
      rw [h]
    have hem : (s.afterTables .systemSupervisor).em = s.em := by rw [State.em, hpctl, State.em]
    refine hframe (kind := .systemSupervisor) ht ?_ ?_
    · rw [State.faultStack, hem, hsp, htab]
      cases s.em <;> rfl
    · have hpc : (s.afterTables .systemSupervisor).faultPctl c .systemSupervisor =
          putBit (putBit (putBit s.pctl 10 false) 1 true) 0
            (if faultType c = 1 then false else ssp.getLsbD 0) := by
        rw [State.faultPctl, hpctl, htab]
        exact if_pos rfl
      refine (hpc.trans (faultPctl_super _ _)).trans (congrArg (s.pctl &&& 0xFFFFFBFC ||| 2 ||| ·) ?_)
      by_cases h1 : faultType c = 1
      · rw [if_pos h1, if_pos h1]; rfl
      · rw [if_neg h1, if_neg h1]
        exact (and_one_eq_ite ssp).symm

/-! Interrupt entries (`60_exceptions.md` R513, R514, R517). -/

/-- The record of an interrupt: PC, AC and the vector below the frame. -/
def State.writeInterruptRecord (s : State) (nfp pc ac : Word) (v : BitVec 8) : State :=
  ((s.writeWord (nfp - 16) pc).writeWord (nfp - 12) ac).writeWord (nfp - 8) (v.zeroExtend 32)

theorem State.writeInterruptRecord_eq (s : State) (nfp pc ac : Word) (v : BitVec 8) :
    ∃ m, s.writeInterruptRecord nfp pc ac v = { s with mem := m } := by
  obtain ⟨m1, h1⟩ := s.writeWord_mem (nfp - 16) pc
  obtain ⟨m2, h2⟩ := State.writeWord_mem { s with mem := m1 } (nfp - 12) ac
  obtain ⟨m3, h3⟩ := State.writeWord_mem { s with mem := m2 } (nfp - 8) (v.zeroExtend 32)
  exact ⟨m3, by simp only [State.writeInterruptRecord, h1, h2, h3]⟩

/-- The three words of the record lie apart. -/
theorem State.writeInterruptRecord_reads {s : State} (hw : s.mem.wf = true) (nfp pc ac : Word)
    (v : BitVec 8) :
    (s.writeInterruptRecord nfp pc ac v).readWord (nfp - 16) = pc ∧
      (s.writeInterruptRecord nfp pc ac v).readWord (nfp - 12) = ac ∧
      (s.writeInterruptRecord nfp pc ac v).readWord (nfp - 8) = v.zeroExtend 32 := by
  have hpc := State.writeWord_wf hw (nfp - 16) pc
  have hac := State.writeWord_wf hpc (nfp - 12) ac
  refine ⟨?_, ?_, ?_⟩ <;> rw [State.writeInterruptRecord]
  · rw [State.readWord_writeWord_apart hac _ (by bv_omega) (by bv_omega),
      State.readWord_writeWord_apart hpc _ (by bv_omega) (by bv_omega), State.readWord_writeWord_same hw]
  · rw [State.readWord_writeWord_apart hac _ (by bv_omega) (by bv_omega),
      State.readWord_writeWord_same hpc]
  · rw [State.readWord_writeWord_same hac]

/-- The saving of the mask, by kind of interrupt (R517). -/
theorem State.saveMask_hardware (s : State) {k : InterruptKind} (hk : k ≠ .software) :
    s.saveMask k =
      { s with
        locals := s.locals.set 3 s.intc.imsk
        intc := { s.intc with
                  imsk := if s.ctrl.icon.getLsbD (if k = .expanded then 12 else 11) then 0
                    else s.intc.imsk } } := by
  cases k with
  | software => exact absurd rfl hk
  | expanded => simp only [State.saveMask, if_true]; split <;> rfl
  | dedicated => simp only [State.saveMask, reduceCtorEq, if_false]; split <;> rfl
  | nmi => simp only [State.saveMask, reduceCtorEq, if_false]; split <;> rfl

/-- The state of an interrupt entry up to the jump to the handler, with call trace off. -/
def State.interruptState (s : State) (v : BitVec 8) (k : InterruptKind) : State :=
  (((({ s with turns := [] } : State).newFrame s.ip s.interruptFrame false 7).writeInterruptRecord
    s.interruptFrame s.pctl s.ac v).setPctl (interruptPctl s.pctl v)).saveMask k

/-- That state from the frame that is entered. -/
theorem State.interruptState_eq (s : State) (v : BitVec 8) (k : InterruptKind) :
    ∃ m l i, s.interruptState v k =
      { (({ s with turns := [] } : State).newFrame s.ip s.interruptFrame false 7) with
        mem := m
        locals := l
        intc := { s.intc with imsk := i }
        pctl := interruptPctl s.pctl v
        trace := { s.trace with teDelay := { left := 0, old := false } } } := by
  obtain ⟨m1, r, ts, h1, -⟩ :=
    ({ s with turns := [] } : State).newFrame_eq s.ip s.interruptFrame false 7
  obtain ⟨m2, h2⟩ := (({ s with turns := [] } : State).newFrame s.ip s.interruptFrame false
    7).writeInterruptRecord_eq s.interruptFrame s.pctl s.ac v
  obtain ⟨l, i, h4, -⟩ := State.saveMask_eq (((({ s with turns := [] } : State).newFrame s.ip
    s.interruptFrame false 7).writeInterruptRecord s.interruptFrame s.pctl s.ac v).setPctl
      (interruptPctl s.pctl v)) k
  exact ⟨m2, l, i, by rw [State.interruptState, h4, h2, h1]; rfl⟩

theorem State.enterInterrupt_untraced {s : State} (h3 : s.tc.getLsbD 3 = false) (v : BitVec 8)
    (k : InterruptKind) : ∃ f, s.enterInterrupt v k =
      { s.interruptState v k with ip := alignTarget (s.vectorEntry v k), icache := f } := by
  have htc : (s.interruptState v k).tc = s.tc := by
    obtain ⟨m, l, i, he⟩ := s.interruptState_eq v k
    obtain ⟨m1, r, ts, h1, -⟩ :=
      ({ s with turns := [] } : State).newFrame_eq s.ip s.interruptFrame false 7
    rw [he, h1]
  have hgate := callEvent_gate (w := (s.interruptState v k).tc) (htc ▸ h3)
  have hs : (s.interruptState v k).signal (evCall &&& eventGate (s.interruptState v k).tc) false s.ip =
      s.interruptState v k := by rw [hgate, State.signal_zero]
  refine ⟨{ (s.interruptState v k).icache with
    fetchingLocked := (s.vectorEntry v k).getLsbD 1 &&
      (s.interruptState v k).inLocked (alignTarget (s.vectorEntry v k)) }, ?_⟩
  rw [State.enterInterrupt, h3]
  exact congrArg (fun t : State => { t with
    ip := alignTarget (s.vectorEntry v k)
    icache := { t.icache with
                fetchingLocked := (s.vectorEntry v k).getLsbD 1 &&
                  t.inLocked (alignTarget (s.vectorEntry v k)) } }) hs

/-- The priority lies above the other fields of PC. -/
theorem vectorPriority_low (v : BitVec 8) {j : Nat} (hj : j < 16) :
    ((v >>> 3).zeroExtend 32 <<< 16 : Word).getLsbD j = false := by
  rw [BitVec.getLsbD_shiftLeft, decide_eq_true hj]
  simp

/-- PC after an interrupt entry. -/
theorem interruptPctl_eq (w : Word) (v : BitVec 8) : interruptPctl w v =
    (w &&& (0xFFE0FBFE : Word)) ||| (0x2002 : Word) ||| ((v >>> 3).zeroExtend 32 <<< 16) := by
  have hlow (j : Nat) (hj : j < 16) := vectorPriority_low v hj
  rw [interruptPctl]
  generalize ((v >>> 3).zeroExtend 32 <<< 16 : Word) = q at hlow ⊢
  refine BitVec.eq_of_getLsbD_eq fun j hj => ?_
  have hq := hlow j
  obtain ⟨k, rfl⟩ : ∃ k : Fin 32, k.val = j := ⟨⟨j, hj⟩, rfl⟩
  simp only [putBit, if_true, Bool.false_eq_true, if_false, BitVec.getLsbD_or, BitVec.getLsbD_and,
    BitVec.getLsbD_not, hj, decide_true, Bool.true_and]
  generalize w.getLsbD k.val = x
  generalize q.getLsbD k.val = y at hq ⊢
  clear hj
  revert k x y
  decide

/-- The low half of PC after an interrupt entry. -/
theorem interruptPctl_low (w : Word) (v : BitVec 8) {j : Nat} (hj : j < 16) :
    (interruptPctl w v).getLsbD j =
      ((w.getLsbD j && (0xFFE0FBFE : Word).getLsbD j) || (0x2002 : Word).getLsbD j) := by
  rw [interruptPctl_eq, BitVec.getLsbD_or, vectorPriority_low v hj, Bool.or_false, BitVec.getLsbD_or,
    BitVec.getLsbD_and]

/-- The record of an interrupt entry. -/
theorem State.interruptState_reads {s : State} (hw : s.mem.wf = true) (v : BitVec 8)
    (k : InterruptKind) :
    (s.interruptState v k).readWord (s.interruptFrame - 16) = s.pctl ∧
      (s.interruptState v k).readWord (s.interruptFrame - 12) = s.ac ∧
      (s.interruptState v k).readWord (s.interruptFrame - 8) = v.zeroExtend 32 := by
  have hrec := State.writeInterruptRecord_reads (State.newFrame_wf (s := { s with turns := [] }) hw s.ip
    s.interruptFrame false 7) s.interruptFrame s.pctl s.ac v
  obtain ⟨l, i, hm, -⟩ := State.saveMask_eq (((({ s with turns := [] } : State).newFrame s.ip
    s.interruptFrame false 7).writeInterruptRecord s.interruptFrame s.pctl s.ac v).setPctl
      (interruptPctl s.pctl v)) k
  have hread (a : Word) : (s.interruptState v k).readWord a =
      ((({ s with turns := [] } : State).newFrame s.ip s.interruptFrame false 7).writeInterruptRecord
        s.interruptFrame s.pctl s.ac v).readWord a :=
    State.readWord_congr (congrArg (fun t : State => t.mem) hm) (congrArg (fun t : State => t.ctrl) hm) a
  simpa only [hread] using hrec

/-- An interrupt entry enters a frame. -/
theorem State.enterInterrupt_entered {s : State} (h3 : s.tc.getLsbD 3 = false) (v : BitVec 8)
    (k : InterruptKind) :
    s.FrameEntered (s.enterInterrupt v k) s.interruptFrame s.ip ((s.fp &&& 0xFFFFFFF0) ||| 7)
      (alignTarget (s.vectorEntry v k)) := by
  have hent := ({ s with turns := [] } : State).newFrame_entered s.ip s.interruptFrame
    (alignTarget (s.vectorEntry v k)) 7
  obtain ⟨f, ht⟩ := State.enterInterrupt_untraced h3 v k
  rw [ht, State.interruptState]
  generalize ({ s with turns := [] } : State).newFrame s.ip s.interruptFrame false 7 = u at hent ⊢
  obtain ⟨m, hm⟩ := u.writeInterruptRecord_eq s.interruptFrame s.pctl s.ac v
  rw [hm]
  have hframe : s.FrameEntered (u.goTo (alignTarget (s.vectorEntry v k))) s.interruptFrame s.ip
      ((s.fp &&& 0xFFFFFFF0) ||| 7) (alignTarget (s.vectorEntry v k)) := hent.of_eq rfl rfl rfl
  by_cases hk : k = .software
  · subst hk
    exact hframe.congr rfl rfl rfl rfl rfl
  · rw [State.saveMask_hardware _ hk]
    exact hframe.congr_reg rfl
      (fun n hn => (State.getReg_setReg (u.goTo _) 3 n _).trans (if_neg hn)) rfl rfl

theorem State.enterInterrupt_pctl (s : State) (v : BitVec 8) (k : InterruptKind) :
    (s.enterInterrupt v k).pctl = interruptPctl s.pctl v := by
  obtain ⟨l, m, r, ts, tc, i, f, h, -⟩ := s.enterInterrupt_cases v k
  rw [h]

theorem State.enterInterrupt_ac (s : State) (v : BitVec 8) (k : InterruptKind) :
    (s.enterInterrupt v k).ac = s.ac := by
  obtain ⟨l, m, r, ts, tc, i, f, h, -⟩ := s.enterInterrupt_cases v k
  rw [h]

/-- What an interrupt entry does with the mask (R517). -/
theorem State.interruptState_mask (s : State) (v : BitVec 8) (k : InterruptKind) :
    (k = .software → (s.interruptState v k).intc = s.intc) ∧
    (k ≠ .software → (s.interruptState v k).getReg 3 = s.intc.imsk ∧
      (s.interruptState v k).intc.imsk =
        if s.ctrl.icon.getLsbD (if k = .expanded then 12 else 11) then 0 else s.intc.imsk) := by
  obtain ⟨m1, r, ts, h1, -⟩ :=
    ({ s with turns := [] } : State).newFrame_eq s.ip s.interruptFrame false 7
  rw [State.interruptState]
  generalize ({ s with turns := [] } : State).newFrame s.ip s.interruptFrame false 7 = u at h1 ⊢
  obtain ⟨m2, h2⟩ := u.writeInterruptRecord_eq s.interruptFrame s.pctl s.ac v
  have hintc : u.intc = s.intc := by rw [h1]
  have hctrl : u.ctrl = s.ctrl := by rw [h1]
  rw [h2]
  refine ⟨fun hk => ?_, fun hk => ?_⟩
  · rw [hk]
    exact hintc
  · rw [State.saveMask_hardware _ hk, ← hintc, ← hctrl]
    exact ⟨(State.getReg_setReg u 3 3 _).trans (if_pos rfl), rfl⟩

/-- Settles O53. -/
theorem interruptEntry : Obligations.InterruptEntry := by
  intro s v k hw h3 entry stack frame t
  have hentry : s.vectorEntry v k = entry := by
    have hcached : (v.extractLsb' 0 4 = 2#4) = (v &&& 15 = 2) := by
      revert v
      decide
    simp only [State.vectorEntry, Bool.and_eq_true, beq_iff_eq, hcached]
    rfl
  have hent := State.enterInterrupt_entered h3 v k
  obtain ⟨hpc, hac, hvec⟩ := State.interruptState_reads hw v k
  obtain ⟨f, ht⟩ := State.enterInterrupt_untraced h3 v k
  obtain ⟨hsoft, hhard⟩ := s.interruptState_mask v k
  have hread (a : Word) : t.readWord a = (s.interruptState v k).readWord a :=
    State.readWord_congr (congrArg (fun u : State => u.mem) ht) (congrArg (fun u : State => u.ctrl) ht) a
  rw [hentry] at hent
  have hintc : t.intc = (s.interruptState v k).intc := (congrArg (fun u : State => u.intc) ht :)
  have hreg : t.getReg 3 = (s.interruptState v k).getReg 3 :=
    (congrArg (fun u : State => u.getReg 3) ht :)
  refine ⟨hent, (s.enterInterrupt_pctl v k).trans (interruptPctl_eq _ _), s.enterInterrupt_ac v k,
    (hread _).trans hpc, (hread _).trans hac, (hread _).trans hvec, fun hk => hintc.trans (hsoft hk),
    fun hk => ?_⟩
  rw [hreg, hintc]
  exact hhard hk

/-! The return from a handler. -/

/-- `ret` in the frame of a handler finds its record (`61_faults.md` R552; `60_exceptions.md` R520). -/
theorem State.Entered.handlerReturns {s t : State} {rip : Word} {rt : BitVec 3} (h : s.Entered t rip rt)
    (hrt : rt = 1 ∨ rt = 7) (h5 : s.rcache.length < 5) (hfp : s.fp &&& 15 = 0)
    (hpc : t.readWord (t.fp - 16) = s.pctl) (hac : t.readWord (t.fp - 12) = s.ac) :
    completesWith (exec .ret t) fun u => u.ip = rip &&& 0xFFFFFFFC ∧ u.locals = s.locals.set 2 rip ∧
      u.globals = s.globals ∧ u.rcache = s.rcache ∧ u.depth = s.depth ∧ u.ac = s.ac ∧
      u.pctl = if t.em then s.pctl else t.pctl := by
  have hkind : (t.pfp &&& 7).toNat = 1 ∨ (t.pfp &&& 7).toNat = 7 := by
    rw [h.pfp_kind]
    rcases hrt with rfl | rfl <;> decide
  obtain ⟨u, hnext, hret, huac, hpctl⟩ := execRet_returns h.untraced h.turns (by omega)
  obtain ⟨hip, hlocals, hglobals, hrcache, hdepth⟩ := h.returned h5 hfp hret
  rw [if_pos hkind, hac] at huac
  refine ⟨u, hnext, hip, hlocals, hglobals, hrcache, hdepth, huac, ?_⟩
  rw [hpctl, hpc, if_neg (c := (t.pfp &&& 7).toNat = 2 ∨ (t.pfp &&& 7).toNat = 3) (by omega)]
  simp only [hkind, true_and]

section
variable {s : State} (h : s.untraced = true) (h5 : s.rcache.length < 5)
  (hroom : s.rcache.length < s.config.regcacheSets)

include h h5 hroom

theorem State.enterInterrupt_enteredOnChip (v : BitVec 8) (k : InterruptKind) :
    s.Entered (s.enterInterrupt v k) s.ip 7 := by
  obtain ⟨hm, hd, -⟩ := s.untraced_iff.1 h
  have h3 : s.tc.getLsbD 3 = false := mode_bit_off hm (by decide)
  have hpfp := (State.enterInterrupt_entered h3 v k).pfp
  obtain ⟨f, ht⟩ := State.enterInterrupt_untraced h3 v k
  obtain ⟨m, l, i, hs⟩ := s.interruptState_eq v k
  rw [State.newFrame_on_chip (s := { s with turns := [] }) h5 hroom] at hs
  rw [hs] at ht
  rw [ht] at hpfp ⊢
  exact ⟨(State.untraced_iff _).2 ⟨hm, hd, rfl⟩, rfl, hpfp, ⟨_, rfl⟩, rfl, rfl⟩

theorem State.enterFault_enteredOnChip (hq : s.turns = []) {t : State} {c : FaultCode} {a rip : Word}
    (ht : s.enterFault c a rip = .ok t) : s.Entered t rip 1 := by
  obtain ⟨hm, hd, -⟩ := s.untraced_iff.1 h
  have h3 : s.tc.getLsbD 3 = false := mode_bit_off hm (by decide)
  obtain ⟨target, kind, -, -, -, -, -, -, htarget, -⟩ := State.enterFault_cases ht
  have hexp := State.enterFault_untraced h3 (a := a) (rip := rip) htarget
  rw [State.afterTables_nil hq, State.newFrame_on_chip h5 hroom, putBit_frame] at hexp
  rw [State.turn_nil (by exact hq)] at hexp
  obtain ⟨m, hrec, -⟩ := State.writeFaultRecord_eq _ (s.faultFrame kind) s.pctl s.ac c a
  rw [hrec] at hexp
  obtain rfl := Except.ok.inj (ht.symm.trans hexp)
  exact ⟨(State.untraced_iff _).2 ⟨hm, hd, rfl⟩, hq, rfl, ⟨_, rfl⟩, rfl, rfl⟩

end

/-- Settles O54. -/
theorem handlerReturns : Obligations.HandlerReturns := by
  intro s t h hq hw h5 hroom hfp resumes
  have h3 : s.tc.getLsbD 3 = false := mode_bit_off (s.untraced_iff.1 h).1 (by decide)
  refine ⟨fun v k ht => ?interrupt, fun c a rip ht => ?fault⟩
  case interrupt =>
    have hfp' : t.fp = s.interruptFrame := by rw [ht, (State.enterInterrupt_entered h3 v k).fp]
    have hem : t.em = true := by
      rw [ht, State.em, State.enterInterrupt_pctl, interruptPctl_low _ _ (by decide)]
      exact Bool.or_true _
    have hpctl {w : Word} (hw : w = if t.em then s.pctl else t.pctl) : w = s.pctl := by
      rw [hw, if_pos hem]
    obtain ⟨f, hx⟩ := State.enterInterrupt_untraced h3 v k
    have hread (b : Word) : t.readWord b = (s.interruptState v k).readWord b :=
      State.readWord_congr (congrArg (fun u : State => u.mem) (ht.trans hx))
        (congrArg (fun u : State => u.ctrl) (ht.trans hx)) b
    obtain ⟨hpc, hac, -⟩ := State.interruptState_reads hw v k
    rw [← hread, ← hfp'] at hpc hac
    have hent := ht ▸ State.enterInterrupt_enteredOnChip h h5 hroom v k
    obtain ⟨u, hnext, hip, hlocals, hglobals, hrcache, hdepth, huac, hupc⟩ :=
      hent.handlerReturns (.inr rfl) h5 hfp hpc hac
    exact ⟨u, hnext, ⟨hip, hlocals, hglobals, hrcache, hdepth, huac, hupc⟩, hpctl hupc⟩
  case fault =>
    obtain ⟨hpc, hac, -, -⟩ := State.enterFault_hasFaultRecord hw ht
    exact (State.enterFault_enteredOnChip h h5 hroom hq ht).handlerReturns (.inl rfl) h5 hfp hpc hac

end Sys2Proof.Machine
end

section
/-! The interrupt controller (`60_exceptions.md`): the NMI (O57), software interrupts (O55) and hardware
interrupts (O56). -/

namespace Sys2Proof.Machine

/-! The NMI (R512). -/

theorem interruptPctl_nmi (w : Word) : (interruptPctl w 248).extractLsb' 16 5 = 31 := by
  have hmask : (0xFFE0FBFE : Word).extractLsb' 16 5 = 0#5 := by decide
  have hvec : (0x2002 : Word).extractLsb' 16 5 |||
      (((248 : BitVec 8) >>> 3).zeroExtend 32 <<< 16 : Word).extractLsb' 16 5 = 31 := by decide
  rw [interruptPctl_eq, BitVec.extractLsb'_or, BitVec.extractLsb'_or, BitVec.extractLsb'_and, hmask,
    BitVec.and_zero, BitVec.zero_or, hvec]

/-- Settles O57. -/
theorem nmiService : Obligations.NmiService := by
  intro s
  refine ⟨fun hpend hfree => ?_, fun hserv => ?_⟩
  · have hready : s.nmiReady = true := by rw [State.nmiReady, hpend, hfree]; rfl
    have hout : s.afterSampling = .next s.takeNmi := if_pos hready
    obtain ⟨l, m, r, ts, tc, i, f, h, -⟩ :=
      ({ s with intc := { s.intc with nmiPending := false } } : State).enterInterrupt_cases 248 .nmi
    have hlow {j : Nat} (hj : j < 16) := interruptPctl_low s.pctl 248 hj
    refine ⟨s.takeNmi, hout, ?_⟩
    rw [State.takeNmi, h]
    exact ⟨rfl, interruptPctl_nmi s.pctl, (hlow (by decide)).trans (Bool.or_true _),
      (hlow (by decide)).trans (by rw [show (0xFFE0FBFE : Word).getLsbD 0 = false by decide, Bool.and_false]; decide),
      (hlow (by decide)).trans (Bool.or_true _), rfl, rfl⟩
  · have hready : s.nmiReady = false := by
      rw [State.nmiReady, ← Option.not_isSome, hserv]
      exact Bool.and_false _
    rw [State.afterSampling, hready, if_neg Bool.false_ne_true, if_pos hserv]

/-! Other agents while the interrupt table is locked (R506). -/

theorem State.startedMask_zero {s : State} (h : ∀ c : Fin 4, s.dma.started.get c = false) :
    s.startedMask = 0 := by
  change BitVec.ofBool (s.dma.started.get 3) ++ BitVec.ofBool (s.dma.started.get 2) ++
    BitVec.ofBool (s.dma.started.get 1) ++ BitVec.ofBool (s.dma.started.get 0) = 0#4
  rw [h, h, h, h]
  rfl

/-- Other agents leave the byte at an address while the interrupt table is locked: they have no turn, or
the byte is in the locked range and no DMA channel is started. -/
def State.LeavesByte (s : State) (x : Word) : Prop :=
  s.turns = [] ∨ s.startedMask = 0 ∧ ((x - s.tables.intTableBase).toNat < 1028 ∨
    (x - (s.tables.intTableBase &&& 0xFFFFFFF0)).toNat < 16)

theorem State.LeavesByte.tableTurn {s : State} {x : Word} (h : s.LeavesByte x) : s.tableTurn.LeavesByte x := by
  rcases h with hq | ⟨hd, hx⟩
  · rw [State.tableTurn, State.lockedTurn_nil hq]
    exact .inl hq
  · refine .inr ⟨?_, ?_⟩
    · rw [State.startedMask, State.tableTurn, State.lockedTurn_dma]
      exact hd
    · rwa [State.tableTurn, State.lockedTurn_tables]

theorem State.LeavesByte.readByte {s : State} {x : Word} (h : s.LeavesByte x) (hw : s.mem.wf = true) :
    s.tableTurn.readByte x = s.readByte x := by
  rcases h with hq | ⟨hd, hx⟩
  · rw [State.tableTurn, State.lockedTurn_nil hq]
  · exact State.tableTurn_readByte hw hd x hx

theorem State.tableTurn_wf {s : State} (hw : s.mem.wf = true) : s.tableTurn.mem.wf = true :=
  State.lockedTurn_wf hw _ _

/-! Posting (R506). -/

/-- The pending-interrupts byte lies in the table, behind the word of priorities. -/
theorem State.pendingByte_sub (s : State) (p : BitVec 5) :
    (s.pendingByte p - s.tables.intTableBase).toNat = 4 + p.toNat := by
  have hp : (p.zeroExtend 32 : Word).toNat = p.toNat := BitVec.toNat_setWidth_of_le (by decide)
  have hlt := p.isLt
  rw [State.pendingByte]
  bv_omega

/-- What posting leaves in a byte behind the word of priorities. -/
theorem State.postInTable_readByte {s : State} (hw : s.mem.wf = true) (v : BitVec 8) {x : Word}
    (hx : s.LeavesByte x) (hp : s.LeavesByte (s.pendingByte (v.extractLsb' 3 5)))
    (h4 : 4 ≤ (x - s.tables.intTableBase).toNat) :
    (s.postInTable v).readByte x = if s.pendingByte (v.extractLsb' 3 5) = x
      then s.readByte (s.pendingByte (v.extractLsb' 3 5)) ||| (1#8 <<< (v.toNat % 8))
      else s.readByte x := by
  have hw1 := State.tableTurn_wf hw
  have hw2 := State.tableTurn_wf hw1
  simp only [State.postInTable]
  rw [State.writeWord, State.readByte_writeBytes_outside (State.tableTurn_wf (State.writeByte_wf hw2 _ _))
    (by rw [bytesOfWord_length]; exact h4)]
  have hlast : (s.tableTurn.tableTurn.writeByte (s.pendingByte (v.extractLsb' 3 5))
      (s.tableTurn.readByte (s.pendingByte (v.extractLsb' 3 5)) ||| 1#8 <<< (v.toNat % 8))).LeavesByte x :=
    hx.tableTurn.tableTurn
  rw [hlast.readByte (State.writeByte_wf hw2 _ _), State.readByte_writeByte hw2, hp.readByte hw,
    hx.tableTurn.readByte hw1, hx.readByte hw]

theorem State.postInTable_readWord {s : State} (hw : s.mem.wf = true) (v : BitVec 8) :
    (s.postInTable v).readWord s.tables.intTableBase =
      s.readWord s.tables.intTableBase ||| BitVec.ofNat 32 (2 ^ (v.extractLsb' 3 5).toNat) := by
  have hbit : ∀ p : BitVec 5, 1#32 <<< p.toNat = BitVec.ofNat 32 (2 ^ p.toNat) := by decide
  rw [State.postInTable, State.readWord_writeWord_same (State.tableTurn_wf (State.writeByte_wf
    (State.tableTurn_wf (State.tableTurn_wf hw)) _ _)), putBit, if_pos rfl, hbit]

/-! Service (R511). -/

theorem highestPriority_eq {w : Word} {n : BitVec 5} (hbit : w.getLsbD n.toNat = true)
    (hclear : ∀ m : BitVec 5, n < m → w.getLsbD m.toNat = false) : highestPriority w = n := by
  have htop : topBitBelow w 32 = some n.toNat :=
    topBitBelow_eq_some n.isLt hbit fun j h1 h2 => by
      have hj : (BitVec.ofNat 5 j).toNat = j := (BitVec.toNat_ofNat j 5).trans (Nat.mod_eq_of_lt h2)
      rw [← hj]
      exact hclear _ (by rw [BitVec.lt_def, hj]; exact h1)
  rw [highestPriority, htop]
  exact (BitVec.ofNat_toNat 5 n).trans (BitVec.setWidth_eq n)

theorem topBitOfByte_eq {z : Byte} {b : Fin 8} (hbit : z.getLsbD b.val = true)
    (hclear : ∀ d : Fin 8, b < d → z.getLsbD d.val = false) : topBitOfByte z = some b.val := by
  have hext {j : Nat} (hj : j < 8) : (z.zeroExtend 32).getLsbD j = z.getLsbD j := by
    rw [BitVec.getLsbD_setWidth, decide_eq_true (by omega : j < 32), Bool.true_and]
  exact topBitBelow_eq_some b.isLt (by rw [hext b.isLt, hbit]) fun j h1 h2 => by
    rw [hext h2]
    exact hclear ⟨j, h2⟩ h1

/-- Clearing a bit that is set leaves nothing exactly where no other was set. -/
theorem clearBit_eq_zero {z : Byte} {b : Fin 8} (hbit : z.getLsbD b.val = true) :
    z &&& ~~~(1#8 <<< b.val) = 0 ↔ z = 1#8 <<< b.val := by
  revert z b
  decide

/-- The state in which the table is served: the bit of the vector is clear, and the bit of the priority if
no other vector of it was pending. -/
def State.served (s : State) (n : BitVec 5) (b : Nat) : State :=
  if s.readByte (s.pendingByte n) &&& ~~~(1#8 <<< b) = 0 then
    (s.writeByte (s.pendingByte n) (s.readByte (s.pendingByte n) &&& ~~~(1#8 <<< b))).writeWord
      s.tables.intTableBase (putBit (s.readWord s.tables.intTableBase) n.toNat false)
  else s.writeByte (s.pendingByte n) (s.readByte (s.pendingByte n) &&& ~~~(1#8 <<< b))

theorem State.takeSoftware_eq {s : State} {n : BitVec 5} {b : Fin 8} (hn : n ≠ 0)
    (hp : highestPriority (s.readWord s.tables.intTableBase) = n) (hd : s.deliverable n = true)
    (hb : topBitOfByte (s.readByte (s.pendingByte n)) = some b.val) :
    s.takeSoftware = .entered ((s.served n b.val).checkPending.enterInterrupt
      (BitVec.ofNat 8 (8 * n.toNat + b.val)) .software) := by
  have hvec : ∀ (n : BitVec 5) (b : Fin 8),
      (n ++ BitVec.ofNat 3 b.val : BitVec 8) = BitVec.ofNat 8 (8 * n.toNat + b.val) := by decide
  simp only [State.takeSoftware, hp, hd, if_neg hn, hb, hvec, Bool.true_eq_false, if_false]
  rfl

theorem State.served_readByte {s : State} (hw : s.mem.wf = true) (n : BitVec 5) (b : Nat) :
    (s.served n b).readByte (s.pendingByte n) = s.readByte (s.pendingByte n) &&& ~~~(1#8 <<< b) := by
  have hsame := State.readByte_writeByte hw (s.pendingByte n) (s.pendingByte n)
    (s.readByte (s.pendingByte n) &&& ~~~(1#8 <<< b))
  rw [if_pos rfl] at hsame
  rw [State.served]
  split
  · rw [State.writeWord, State.readByte_writeBytes_outside (State.writeByte_wf hw _ _)
      (by rw [bytesOfWord_length, State.pendingByte_sub]; omega), hsame]
  · exact hsame

theorem State.served_readWord {s : State} (hw : s.mem.wf = true) (n : BitVec 5) (b : Nat) :
    (s.served n b).readWord s.tables.intTableBase =
      if s.readByte (s.pendingByte n) &&& ~~~(1#8 <<< b) = 0
        then putBit (s.readWord s.tables.intTableBase) n.toNat false
        else s.readWord s.tables.intTableBase := by
  rw [State.served]
  split
  · exact State.readWord_writeWord_same (State.writeByte_wf hw _ _) _ _
  · refine State.readWord_of_bytes (s := s) (t := s.writeByte _ _) rfl fun j hj => ?_
    rw [State.readByte_writeByte hw, if_neg]
    intro heq
    have hsub := s.pendingByte_sub n
    rw [heq] at hsub
    bv_omega

/-- Serving the table changes memory only. -/
theorem State.served_eq (s : State) (n : BitVec 5) (b : Nat) : ∃ m, s.served n b = { s with mem := m } := by
  rw [State.served]
  split
  · exact State.writeWord_mem (s.writeByte _ _) _ _
  · exact ⟨_, rfl⟩

/-- Settles O55. -/
theorem softwareInterrupts : Obligations.SoftwareInterrupts := by
  intro s v hw base w p byteOf
  have hbit8 : ∀ k : Fin 8, 1#8 <<< k.val = BitVec.ofNat 8 (2 ^ k.val) := by decide
  have hpsub := s.pendingByte_sub p
  have hplt := p.isLt
  refine ⟨fun hq => ⟨?_, State.postInTable_readWord hw v⟩, fun hq x hx h4 => ?_, fun hd x hr hx h4 => ?_,
    fun n b hn hbit hclear hdel hb hbclear => ?_⟩
  · have hleaves : s.LeavesByte (s.pendingByte p) :=
      hq.imp_right fun hd => ⟨State.startedMask_zero hd, .inl (by rw [hpsub]; omega)⟩
    refine (State.postInTable_readByte hw v hleaves hleaves (by rw [hpsub]; omega)).trans ?_
    exact (if_pos rfl).trans (by rw [hbit8 ⟨v.toNat % 8, Nat.mod_lt _ (by decide)⟩]; rfl)
  · rw [State.postInTable_readByte hw v (.inl hq) (.inl hq) h4]
    exact if_neg hx.symm
  · have hd0 := State.startedMask_zero hd
    rw [State.postInTable_readByte hw v (.inr ⟨hd0, hr⟩) (.inr ⟨hd0, .inl (by rw [hpsub]; omega)⟩) h4]
    exact if_neg hx.symm
  · have htop := topBitOfByte_eq hb hbclear
    have hdeliver : s.deliverable n = true := by
      rw [State.deliverable]
      simpa using hdel
    have hzero : s.readByte (s.pendingByte n) &&& ~~~(1#8 <<< b.val) = 0 ↔
        s.readByte (s.pendingByte n) = 1#8 <<< b.val := clearBit_eq_zero hb
    have hclearbit : ∀ n : BitVec 5, ~~~(1#32 <<< n.toNat) = ~~~BitVec.ofNat 32 (2 ^ n.toNat) := by decide
    obtain ⟨m, hm⟩ := s.served_eq n b.val
    have hword : (s.served n b.val).checkPending.readWord base =
        (s.served n b.val).readWord s.tables.intTableBase := rfl
    have htables : (s.served n b.val).tables = s.tables := by rw [hm]
    refine ⟨_, State.takeSoftware_eq hn (highestPriority_eq hbit hclear) hdeliver htop, ?_, ?_, ?_, ?_⟩
    · exact (State.served_readByte hw n b.val).trans (by rw [hbit8]; rfl)
    · rw [hword, State.served_readWord hw, putBit, if_neg Bool.false_ne_true, hclearbit]
      simp only [hzero]
      rw [hbit8]
      rfl
    · rw [hword, ← htables]
      rfl
    · rw [hm]
      exact ⟨rfl, rfl, rfl, rfl⟩

/-! Sampling the inputs (R509, R512). -/

/-- The levels of the pins that are sampled: of the next input, or as they were (log 12). -/
def State.inputPins (s : State) : BitVec 8 := (s.intc.events.head?.map ExternalEvent.xint).getD s.intc.xint

def State.inputNmi (s : State) : Bool := (s.intc.events.head?.map ExternalEvent.nmi).getD s.intc.nmiPin

def State.inputDma (s : State) : BitVec 4 := (s.intc.events.head?.map ExternalEvent.dmaRequest).getD 0

/-- Other agents do not reach the interrupt controller. -/
theorem State.agentActs_keeps (s : State) (e : ExternalEvent) :
    (s.agentActs e).intc = s.intc ∧ (s.agentActs e).ctrl = s.ctrl := by
  have hstatus (ps : List (Fin 4 × Vector Word 8)) (u : State) :
      (ps.foldl State.agentStatus u).intc = u.intc ∧ (ps.foldl State.agentStatus u).ctrl = u.ctrl := by
    induction ps generalizing u with
    | nil => exact ⟨rfl, rfl⟩
    | cons p ps ih =>
      obtain ⟨hi, hc⟩ := ih (u.agentStatus p)
      rw [List.foldl_cons, hi, hc, State.agentStatus]
      split <;> exact ⟨rfl, rfl⟩
  obtain ⟨m, hm⟩ := State.agentWrites_eq e.writes s
  obtain ⟨hi, hc⟩ := hstatus e.dmaStatus (e.writes.foldl State.agentWrite s)
  exact ⟨hi.trans (by rw [hm]), hc.trans (by rw [hm])⟩

/-- What sampling makes of the interrupt controller. -/
theorem State.sampleInputs_intc (s : State) :
    s.sampleInputs.intc.ipnd = s.intc.ipnd ||| (s.detectedPins s.inputPins).zeroExtend 32 |||
      ((s.inputDma &&& s.startedMask).zeroExtend 32 <<< 8) ∧
    s.sampleInputs.intc.nmiPending = (s.intc.nmiPending || (s.intc.nmiPin && !s.inputNmi)) ∧
    s.sampleInputs.intc.xint = s.inputPins ∧ s.sampleInputs.intc.nmiPin = s.inputNmi := by
  rw [State.sampleInputs, State.inputPins, State.inputNmi, State.inputDma]
  cases he : s.intc.events with
  | nil =>
    have hzero : (Option.map ExternalEvent.dmaRequest ([] : List ExternalEvent).head?).getD 0 &&&
        s.startedMask = 0 := BitVec.zero_and
    exact ⟨by rw [hzero]; rfl, rfl, rfl, rfl⟩
  | cons e rest =>
    obtain ⟨hi, hc⟩ := ({ s with intc := { s.intc with events := rest }, turns := e.during } :
      State).agentActs_keeps e
    simp only [State.latch, State.detectedPins, State.intMode, hi, hc]
    exact ⟨rfl, rfl, rfl, rfl⟩

theorem State.startedMask_getLsbD (s : State) (c : Fin 4) :
    s.startedMask.getLsbD c.val = s.dma.started.get c := by
  have hbits : ∀ (b : Fin 4 → Bool) (c : Fin 4), (BitVec.ofBool (b 3) ++ BitVec.ofBool (b 2) ++
      BitVec.ofBool (b 1) ++ BitVec.ofBool (b 0) : BitVec 4).getLsbD c.val = b c := by decide
  exact hbits s.dma.started.get c

theorem dedicatedPins_getLsbD : ∀ (im : BitVec 2) (k : Fin 8),
    ((dedicatedPins im).getLsbD k.val = true ↔ im = 0 ∨ im = 2 ∧ 5 ≤ k.val) := by decide

theorem State.detectedPins_getLsbD (s : State) (levels : BitVec 8) {k : Nat} (hk : k < 8) :
    (s.detectedPins levels).getLsbD k = true ↔
      (s.intMode = 0 ∨ s.intMode = 2 ∧ 5 ≤ k) ∧ levels.getLsbD k = false ∧
        (s.ctrl.icon.getLsbD (2 + k) = false ∨ s.intc.xint.getLsbD k = true) := by
  rw [← dedicatedPins_getLsbD s.intMode ⟨k, hk⟩, State.detectedPins]
  simp only [BitVec.getLsbD_and, BitVec.getLsbD_or, BitVec.getLsbD_not, BitVec.getLsbD_extractLsb', hk,
    decide_true, Bool.true_and, Bool.and_eq_true, Bool.or_eq_true, Bool.not_eq_true', and_assoc]

/-! Requests and their vectors (R509, R510). -/

theorem State.effectiveMask_getLsbD (s : State) (k : Nat) : s.effectiveMask.getLsbD k = true ↔
    s.intc.imsk.getLsbD k = true ∧ s.ctrl.icon.getLsbD 10 = false := by
  rw [State.effectiveMask]
  cases s.ctrl.icon.getLsbD 10
  · exact ⟨fun h => ⟨h, rfl⟩, And.left⟩
  · exact ⟨fun h => absurd (BitVec.getLsbD_zero.symm.trans h) Bool.false_ne_true, fun h => absurd h.2.symm Bool.false_ne_true⟩

theorem State.isDedicated_iff (s : State) (k : Nat) : s.isDedicated k = true ↔
    8 ≤ k ∨ s.intMode = 0 ∨ s.intMode = 2 ∧ 5 ≤ k := by
  rw [State.isDedicated, Bool.or_eq_true, decide_eq_true_iff]
  by_cases hk : 8 ≤ k
  · exact iff_of_true (.inl hk) (.inl hk)
  · exact or_congr_right (dedicatedPins_getLsbD s.intMode ⟨k, by omega⟩)

theorem State.requests_iff (s : State) (k : Nat) : s.requests k = true ↔
    (8 ≤ k ∨ s.intMode = 0 ∨ s.intMode = 2 ∧ 5 ≤ k) ∧ s.intc.ipnd.getLsbD k = true ∧
      s.intc.imsk.getLsbD k = true ∧ s.ctrl.icon.getLsbD 10 = false ∧ s.mapField k ≠ 0 := by
  rw [State.requests, Bool.and_eq_true, Bool.and_eq_true, Bool.and_eq_true, s.isDedicated_iff,
    s.effectiveMask_getLsbD, bne_iff_ne]
  simp only [and_assoc]

theorem extractLsb'_eq_truncate (w : Word) (n : Nat) : w.extractLsb' n 4 = (w >>> n).truncate 4 := by
  refine BitVec.eq_of_getLsbD_eq fun j hj => ?_
  simp only [BitVec.getLsbD_extractLsb', BitVec.truncate_eq_setWidth, BitVec.getLsbD_setWidth,
    BitVec.getLsbD_ushiftRight, hj]

theorem State.mapField_eq (s : State) {k : Nat} (hk : k < 12) : s.mapField k =
    ((if k < 4 then s.ctrl.imap0 else if k < 8 then s.ctrl.imap1 else s.ctrl.imap2)
      >>> (4 * (k % 4))).truncate 4 := by
  rw [State.mapField, ← extractLsb'_eq_truncate]
  split_ifs with h4 h8
  · rw [Nat.mod_eq_of_lt h4]
  · rw [show k % 4 = k - 4 by omega]
  · rw [show k % 4 = k - 8 by omega]

theorem State.pinVector_eq (s : State) : s.pinVector =
    if s.intMode = 1 then ~~~s.intc.xint
    else if s.intMode = 2 then ((~~~s.intc.xint &&& 0x1F) <<< 3) ||| 2 else 0 := by
  rw [State.pinVector]
  generalize s.intMode = im
  generalize s.intc.xint = x
  match im with
  | 0 => rfl
  | 1 => rfl
  | 2 => rfl
  | 3 => rfl

/-- The candidate is the greatest of the expanded vector and the vectors of the sources. -/
theorem foldl_max_spec (l : List (BitVec 8)) (m : BitVec 8) :
    let v := l.foldl (fun m v => if m < v then v else m) m
    m ≤ v ∧ (∀ x ∈ l, x ≤ v) ∧ (v = m ∨ v ∈ l) := by
  induction l generalizing m with
  | nil => exact ⟨BitVec.le_refl m, nofun, .inl rfl⟩
  | cons y l ih =>
    obtain ⟨hm, hall, hmem⟩ := ih (if m < y then y else m)
    rw [List.foldl_cons]
    split_ifs at hm hall hmem ⊢ with hlt
    · exact ⟨BitVec.le_trans (BitVec.le_of_lt hlt) hm, List.forall_mem_cons.2 ⟨hm, hall⟩,
        .inr (List.mem_cons.2 hmem)⟩
    · exact ⟨hm, List.forall_mem_cons.2 ⟨BitVec.le_trans (BitVec.not_lt.1 hlt) hm, hall⟩,
        hmem.imp_right (List.mem_cons_of_mem y)⟩

theorem State.mem_sources (s : State) (k : Nat) : k ∈ s.sources ↔ k < 12 ∧ s.requests k = true := by
  rw [State.sources, List.mem_filter, List.mem_range]

/-! The delivery test (R510, R516). -/

theorem State.deliverable_iff (s : State) (p : BitVec 5) :
    s.deliverable p = true ↔ s.priority < p ∨ p = 31 := by
  rw [State.deliverable, Bool.or_eq_true, decide_eq_true_iff, beq_iff_eq]

theorem hardwareFirst_iff (hp sp : BitVec 5) :
    hardwareFirst hp sp = true ↔ sp = 0 ∨ sp < hp ∨ sp = hp ∧ hp ≠ 31 := by
  rw [hardwareFirst, Bool.or_eq_true, Bool.or_eq_true, beq_iff_eq, decide_eq_true_iff, Bool.and_eq_true,
    beq_iff_eq, bne_iff_ne, or_assoc, eq_comm (a := hp) (b := sp)]

/-- The delivery test in words: which candidate goes first, and which may be taken. -/
theorem State.deliver_eq (s : State) : s.deliver =
    if s.hardwareVector ≠ 0 ∧
        (s.priority < s.hardwareVector.extractLsb' 3 5 ∨ s.hardwareVector.extractLsb' 3 5 = 31) ∧
        (s.intc.swPriority = 0 ∨ s.intc.swPriority < s.hardwareVector.extractLsb' 3 5 ∨
          s.intc.swPriority = s.hardwareVector.extractLsb' 3 5 ∧ s.hardwareVector.extractLsb' 3 5 ≠ 31) then
      .entered (s.takeHardware s.hardwareVector)
    else if s.intc.swPriority ≠ 0 ∧ (s.priority < s.intc.swPriority ∨ s.intc.swPriority = 31) then
      s.takeSoftware
    else .quiet s := by
  simp only [State.deliver, Bool.and_eq_true, bne_iff_ne, s.deliverable_iff, hardwareFirst_iff, and_assoc]

theorem filter_range_getLast? {p : Nat → Bool} {k n : Nat} (hk : k < n) (hp : p k = true)
    (hmax : ∀ j, k < j → j < n → p j = false) : ((List.range n).filter p).getLast? = some k := by
  induction n with
  | zero => omega
  | succ n ih =>
    rw [List.range_succ, List.filter_append]
    by_cases hkn : k = n
    · rw [← hkn, List.filter_singleton, hp]
      exact List.getLast?_concat
    · rw [List.filter_singleton, hmax n (by omega) (Nat.lt_succ_self n)]
      exact (congrArg List.getLast? (List.append_nil _)).trans
        (ih (by omega) fun j h1 h2 => hmax j h1 (by omega))

theorem State.takeHardware_ipnd (s : State) (v : BitVec 8) :
    (s.takeHardware v).intc.ipnd = (s.clearRequest v).intc.ipnd := by
  obtain ⟨l, m, r, ts, tc, i, f, h, -⟩ := (s.clearRequest v).enterInterrupt_cases v
    (if s.expandedVector = v then .expanded else .dedicated)
  rw [State.takeHardware, h]

theorem State.clearRequest_last {s : State} {v : BitVec 8} {k : Nat} (hk : k < 12)
    (hr : s.requests k = true) (hv : s.dedicatedVector k = v)
    (hmax : ∀ j, k < j → j < 12 → s.requests j = true → s.dedicatedVector j ≠ v) :
    (s.clearRequest v).intc.ipnd = s.intc.ipnd &&& ~~~(1#32 <<< k) := by
  have hlast : (s.sources.filter fun k => s.dedicatedVector k == v).getLast? = some k := by
    rw [State.sources, List.filter_filter]
    refine filter_range_getLast? hk (by rw [hr, hv, beq_self_eq_true]; rfl) fun j h1 h2 => ?_
    cases hj : s.requests j with
    | false => exact Bool.and_false _
    | true => rw [Bool.and_true, beq_eq_false_iff_ne]; exact hmax j h1 h2 hj
  rw [State.clearRequest, hlast]
  rfl

theorem State.clearRequest_none {s : State} {v : BitVec 8}
    (h : ∀ k : Nat, k < 12 → s.requests k = true → s.dedicatedVector k ≠ v) : s.clearRequest v = s := by
  have hnone : (s.sources.filter fun k => s.dedicatedVector k == v) = [] := by
    refine List.filter_eq_nil_iff.2 fun k hk => ?_
    obtain ⟨hlt, hr⟩ := (s.mem_sources k).1 hk
    rw [beq_iff_eq]
    exact h k hlt hr
  rw [State.clearRequest, hnone]
  rfl

/-- Settles O56. -/
theorem hardwareDelivery : Obligations.HardwareDelivery := by
  intro s im dedicated pins nmi dma
  obtain ⟨hipnd, hnmi, hxint, hpin⟩ := s.sampleInputs_intc
  obtain ⟨hge, hall, hmem⟩ := foldl_max_spec (s.sources.map s.dedicatedVector) s.expandedVector
  have hfar {k : Nat} (hk : 8 ≤ k) : ((s.detectedPins s.inputPins).zeroExtend 32).getLsbD k = false := by
    rw [BitVec.getLsbD_setWidth, BitVec.getLsbD_of_ge _ _ hk, Bool.and_false]
  have hrequest {k : Nat} : ((s.inputDma &&& s.startedMask).zeroExtend 32 <<< 8 : Word).getLsbD k =
      (decide (k < 32) && !decide (k < 8) && (s.inputDma &&& s.startedMask).getLsbD (k - 8)) := by
    rw [BitVec.getLsbD_shiftLeft, BitVec.getLsbD_setWidth]
    by_cases h : k < 32
    · rw [decide_eq_true (by omega : k - 8 < 32), Bool.true_and]
    · rw [decide_eq_false h]
      rfl
  refine ⟨fun k hk => ?low, fun c => ?dma, fun k hk => ?high, ?nmi, hxint, hpin,
    fun k hk => ⟨s.requests_iff k, rfl, s.mapField_eq hk⟩, ?expanded, ?rest⟩
  case low =>
    have hpins : ((s.detectedPins s.inputPins).zeroExtend 32).getLsbD k =
        (s.detectedPins s.inputPins).getLsbD k := by
      rw [BitVec.getLsbD_setWidth, decide_eq_true (by omega : k < 32), Bool.true_and]
    rw [hipnd, BitVec.getLsbD_or, BitVec.getLsbD_or, hrequest, decide_eq_true hk, hpins, Bool.not_true,
      Bool.and_false, Bool.false_and, Bool.or_false, Bool.or_eq_true, s.detectedPins_getLsbD _ hk]
    have hded : dedicated k ↔ im = 0 ∨ im = 2 ∧ 5 ≤ k := or_iff_right (by omega)
    rw [hded]
    rfl
  case dma =>
    have hc := c.isLt
    rw [hipnd, BitVec.getLsbD_or, BitVec.getLsbD_or, hrequest, hfar (by omega), decide_eq_true (by omega),
      decide_eq_false (by omega), Bool.or_false, Nat.add_sub_cancel_left, BitVec.getLsbD_and,
      s.startedMask_getLsbD, Bool.or_eq_true]
    simp only [Bool.not_false, Bool.true_and, Bool.and_eq_true]
    rfl
  case high =>
    rw [hipnd, BitVec.getLsbD_or, BitVec.getLsbD_or, hrequest, hfar (by omega),
      BitVec.getLsbD_of_ge _ (k - 8) (by omega), Bool.and_false, Bool.or_false, Bool.or_false]
  case nmi =>
    rw [hnmi, Bool.or_eq_true, Bool.and_eq_true, Bool.not_eq_true']
    rfl
  case expanded =>
    rw [State.expandedVector, s.pinVector_eq]
    simp only [Bool.and_eq_true, s.effectiveMask_getLsbD, decide_eq_true_iff, and_assoc]
    rfl
  case rest =>
    intro v p posted
    refine ⟨fun k hk hr => hall _ (List.mem_map_of_mem ((s.mem_sources k).2 ⟨hk, hr⟩)), hge,
      hmem.imp_right fun h => ?_, fun h0 hp hfirst => ?_, fun h0 hp hfirst => ?_, fun hp hs => ?_,
      fun k hk hr hvec hmax => ?_, fun hnone => ?_⟩
    · obtain ⟨k, hk, hkv⟩ := List.mem_map.1 h
      obtain ⟨hlt, hr⟩ := (s.mem_sources k).1 hk
      exact ⟨k, hlt, hr, hkv.symm⟩
    · rw [s.deliver_eq]
      exact if_pos ⟨h0, hp, hfirst⟩
    · have hlast : ¬(v ≠ 0 ∧ (s.priority < p ∨ p = 31) ∧
          (posted = 0 ∨ posted < p ∨ posted = p ∧ p ≠ 31)) := by
        rintro ⟨hv0, -, hpost⟩
        have hnot : ¬(posted < p) ∧ ¬(posted = p ∧ p ≠ 31) := by
          rcases hfirst with h | h | ⟨h1, h2⟩
          · exact absurd h hv0
          · exact ⟨BitVec.not_lt.2 (BitVec.le_of_lt h), fun hc => by bv_omega⟩
          · exact ⟨by rw [h1]; exact BitVec.lt_irrefl p, fun hc => hc.2 h2⟩
        exact hpost.elim h0 fun h => h.elim hnot.1 hnot.2
      rw [s.deliver_eq]
      exact (if_neg hlast).trans (if_pos ⟨h0, hp⟩)
    · rw [s.deliver_eq]
      refine (if_neg fun hc => ?_).trans (if_neg fun hc => ?_)
      · exact hp.elim hc.1 fun h => hc.2.1.elim (BitVec.not_lt.2 h.1) h.2
      · exact hs.elim hc.1 fun h => hc.2.elim (BitVec.not_lt.2 h.1) h.2
    · rw [s.takeHardware_ipnd, State.clearRequest_last hk hr hvec hmax]
    · rw [s.takeHardware_ipnd, State.clearRequest_none hnone]

end Sys2Proof.Machine
end

section
/-! Trace events and the trace fault (`62_tracing.md` R573 to R585): O45. -/

namespace Sys2Proof.Machine

/-! The windows of `modtc` and `modpc` are closed (R622). -/

theorem State.effectiveModes_closed {s : State} (h : s.trace.tcDelay.left = 0) (w : Word) :
    s.effectiveModes w = w := by
  rw [State.effectiveModes, h]
  rfl

theorem State.effectiveTe_closed {s : State} (h : s.trace.teDelay.left = 0) (b : Bool) :
    s.effectiveTe b = b := by
  rw [State.effectiveTe, h]
  rfl

/-! The trace fault (R575). -/

/-- The image of the event flags in a fault record. -/
theorem traceRecord_eq (w : Word) :
    faultRecordWord (.trace (((w >>> 16).truncate 8) &&& 0xFE)) = 0x10000 ||| ((w >>> 16) &&& 0xFE) := by
  have hbits : ∀ j : Fin 32, (decide (j.val < 8) && (0xFE : BitVec 8).getLsbD j.val) =
      (0xFE : Word).getLsbD j.val := by decide
  have hsub : (((w >>> 16).truncate 8) &&& (0xFE : BitVec 8)).zeroExtend 32 = (w >>> 16) &&& (0xFE : Word) := by
    generalize w >>> 16 = x
    refine BitVec.eq_of_getLsbD_eq fun j hj => ?_
    rw [BitVec.getLsbD_and, ← hbits ⟨j, hj⟩, BitVec.getLsbD_setWidth, BitVec.getLsbD_and, BitVec.truncate_eq_setWidth,
      BitVec.getLsbD_setWidth, decide_eq_true hj, Bool.true_and]
    cases decide (j < 8) <;> simp
  rw [faultRecordWord, ← hsub]
  rfl

/-- A fault has a handler whatever turns other agents have. -/
theorem State.faultTarget_isSome {s t : State} {c d : FaultCode} (hm : t.mem = s.mem)
    (hc : t.ctrl = s.ctrl) (ht : t.tables = s.tables) (hd : faultType d = faultType c)
    (h : (s.faultTarget c).isSome = true) : (t.faultTarget d).isSome = true := by
  rw [State.faultTarget] at h ⊢
  rw [ht, hd, State.readWord_congr hm hc]
  split at h
  next h1 => rw [if_pos h1]; rfl
  next h1 =>
    split at h
    · cases h
    next h2 => rw [if_neg h1, if_neg h2]; rfl

/-- The handler of a trace fault runs with tracing off. -/
theorem State.faultPctl_trace (s : State) (sub : BitVec 8) (kind : CallKind) :
    (s.faultPctl (.trace sub) kind).getLsbD 0 = false ∧ (s.faultPctl (.trace sub) kind).getLsbD 10 = false := by
  have hmask : (0xFFFFFFFE : Word).getLsbD 0 = false ∧ (0xFFFFFBFF : Word).getLsbD 10 = false ∧
      (0xFFFFFBFC : Word).getLsbD 0 = false ∧ (0xFFFFFBFC : Word).getLsbD 10 = false := by decide
  obtain ⟨h0, h10, hs0, hs10⟩ := hmask
  by_cases hk : kind = .systemSupervisor
  · have hpc : s.faultPctl (.trace sub) kind = (s.pctl &&& 0xFFFFFBFC) ||| 2 ||| (if false then 1 else 0) :=
      (if_pos hk).trans (faultPctl_super s.pctl false)
    rw [hpc]
    simp only [BitVec.getLsbD_or, BitVec.getLsbD_and, hs0, hs10, Bool.and_false]
    decide
  · have hpc : s.faultPctl (.trace sub) kind = s.pctl &&& 0xFFFFFFFE &&& 0xFFFFFBFF :=
      (if_neg hk).trans (faultPctl_same s.pctl (faultType (.trace sub) = 1))
    rw [hpc]
    simp only [BitVec.getLsbD_and, h0, h10, Bool.and_false, Bool.false_and, and_self]

/-- What the handler of a trace fault finds: the record, TC with the events gone, and in the cache the set
of the program with the address of the next instruction. -/
structure State.TraceFaultTaken (s t : State) (faultIp : Word) : Prop where
  code : t.readWord (t.fp - 8) = 0x10000 ||| ((s.tc >>> 16) &&& 0xFE)
  ac : t.readWord (t.fp - 12) = s.ac
  pc : t.readWord (t.fp - 16) = s.pctl &&& 0xFFFFFBFF
  ip : t.readWord (t.fp - 4) = faultIp
  te : t.te = false
  tfp : t.tfp = false
  tc : t.tc = s.tc &&& 0xFF01FFFF
  saved : t.rcache.getLast? = some ⟨s.fp, s.locals.set 2 s.ip⟩

theorem State.traceFault_taken {s : State} (hw : s.mem.wf = true) (h3 : s.tc.getLsbD 3 = false)
    (ht : (s.faultTarget (.trace 0)).isSome = true) (a : Word) :
    completesWith (faultOutcome (s.traceFault a)) fun t => s.TraceFaultTaken t a := by
  have h3' : (s.tc &&& 0xFF01FFFF).getLsbD 3 = false := by rw [BitVec.getLsbD_and, h3, Bool.false_and]
  have h10 : ~~~(1#32 <<< 10) = (0xFFFFFBFF : Word) := by decide
  obtain ⟨⟨target, kind⟩, htarget⟩ := Option.isSome_iff_exists.1 (State.faultTarget_isSome (s := s)
    (t := { s with tc := s.tc &&& 0xFF01FFFF, pctl := putBit s.pctl 10 false })
    (d := .trace (((s.tc >>> 16).truncate 8) &&& 0xFE)) rfl rfl rfl rfl ht)
  obtain ⟨t, hnext, hent, hpctl, -, htc, -, hrec⟩ := State.enterFault_ok
    (s := { s with tc := s.tc &&& 0xFF01FFFF, pctl := putBit s.pctl 10 false }) hw h3' htarget a s.ip
  obtain ⟨hte, htfp⟩ := State.faultPctl_trace _ _ kind
  rw [← hpctl] at hte htfp
  refine ⟨t, congrArg faultOutcome hnext, ?_, hrec.ac, ?_, hrec.ip, hte, htfp, htc, hent.saved⟩
  · exact hrec.code.trans (traceRecord_eq s.tc)
  · exact hrec.pc.trans (by rw [putBit, if_neg Bool.false_ne_true, h10])

/-- Settles O45. -/
theorem pendingTraceFault : Obligations.PendingTraceFault := by
  intro s hw h3 htarget taken
  refine ⟨fun htfp hte => ?off, fun htfp hte => ?on, fun hp hm hte hd1 hd2 => ?prereturn,
    fun htfp hte ts => ?turns⟩
  case off => rw [State.afterInterrupts, htfp, hte, if_pos rfl, if_neg Bool.false_ne_true]
  case on =>
    have hrun : s.afterInterrupts = faultOutcome ({ s with turns := [] }.traceFault s.trace.traceIp) := by
      rw [State.afterInterrupts, htfp, hte, if_pos rfl, if_pos rfl]
    rw [hrun]
    obtain ⟨t, hnext, h⟩ := State.traceFault_taken (s := { s with turns := [] }) hw h3
      (State.faultTarget_isSome (s := s) (t := { s with turns := [] }) rfl rfl rfl rfl htarget) s.trace.traceIp
    exact ⟨t, hnext, ⟨h.code, h.ac, h.pc, h.te, h.tfp, h.tc, h.saved⟩, h.ip⟩
  case turns =>
    have hrun (u : State) (hu : u.tfp = true) (hv : u.te = true) :
        u.afterInterrupts = faultOutcome ({ u with turns := [] }.traceFault u.trace.traceIp) := by
      rw [State.afterInterrupts, hu, hv, if_pos rfl, if_pos rfl]
    rw [hrun s htfp hte, hrun { s with turns := ts } htfp hte]
  case prereturn =>
    have hrun (ts : List (List Host.Cell)) : exec .ret { s with turns := ts } = s.prereturnFault := by
      have hdue : State.prereturnDue { s with turns := ts } = true := by
        rw [State.prereturnDue, State.effectiveModes_closed (s := { s with turns := ts }) hd1]
        exact Bool.and_eq_true_iff.2 ⟨hp, hm⟩
      unfold exec execRet
      rw [hdue, State.effectiveTe_closed (s := { s with turns := ts }) hd2, if_pos rfl]
      exact if_pos hte
    have hpfp : ~~~(1#32 <<< 3) = (0xFFFFFFF7 : Word) := by decide
    have h3' : (s.tc ||| evPrereturn).getLsbD 3 = false := by
      rw [BitVec.getLsbD_or, h3]
      decide
    obtain ⟨t, hnext, h⟩ := State.traceFault_taken
      (s := { (s.setReg 0 (putBit s.pfp 3 false)) with
              tc := s.tc ||| evPrereturn, turns := [], draws := s.draws + 3 }) hw h3'
      (State.faultTarget_isSome (s := s) (t := { (s.setReg 0 (putBit s.pfp 3 false)) with
        tc := s.tc ||| evPrereturn, turns := [], draws := s.draws + 3 }) rfl rfl rfl rfl htarget)
      (Config.freeWord (s.draws + 2))
    have hsaved := h.saved
    rw [putBit, if_neg Bool.false_ne_true, hpfp] at hsaved
    exact ⟨⟨t, (hrun s.turns).trans hnext, h.code, h.ac, h.pc, h.te, h.tfp, h.tc, hsaved⟩,
      fun ts => (hrun ts).trans (hrun s.turns).symm⟩

end Sys2Proof.Machine
end

section
/-! Trace events (`62_tracing.md` R571 to R583): O44. -/

namespace Sys2Proof.Machine

/-! What the mode bits let through. -/

/-- The flags of the event of a trace mode, if the mode is on. -/
def eventFlag (w : Word) (mode : Nat) (flags : Word) : Word := if w.getLsbD mode then flags else 0

/-- The event of each mode from 1 to 6 has one flag, sixteen bits above the mode. -/
theorem event_gate (w : Word) (k : Fin 7) (hk : 1 ≤ k.val) :
    (1#32 <<< (16 + k.val)) &&& eventGate w = eventFlag w k.val (1#32 <<< (16 + k.val)) := by
  have hone : ∀ (k : Fin 7) (j : Fin 32), (1#32 <<< (16 + k.val)).getLsbD j.val = decide (j.val = 16 + k.val) := by
    decide
  have hmask : ∀ k : Fin 7, 1 ≤ k.val → (0x7E : Word).getLsbD k.val = true ∧
      (0x0F800000 : Word).getLsbD (16 + k.val) = false := by decide
  obtain ⟨h7E, hbrk⟩ := hmask k hk
  have hlt := k.isLt
  have hgate : (eventGate w).getLsbD (16 + k.val) = w.getLsbD k.val := by
    rw [eventGate, BitVec.getLsbD_or, hbrk, Bool.or_false, BitVec.getLsbD_shiftLeft, decide_eq_true (by omega),
      decide_eq_false (by omega), Nat.add_sub_cancel_left, BitVec.getLsbD_and, h7E, Bool.and_true]
    rfl
  refine BitVec.eq_of_getLsbD_eq fun j hj => ?_
  have hbit : (1#32 <<< (16 + k.val)).getLsbD j = decide (j = 16 + k.val) := hone k ⟨j, hj⟩
  have hflag : (eventFlag w k.val (1#32 <<< (16 + k.val))).getLsbD j =
      (w.getLsbD k.val && decide (j = 16 + k.val)) := by
    rw [eventFlag, ← hbit]
    cases w.getLsbD k.val with
    | true => rfl
    | false => exact BitVec.getLsbD_zero
  rw [BitVec.getLsbD_and, hbit, hflag]
  by_cases hjk : j = 16 + k.val
  · rw [hjk, hgate, decide_eq_true rfl, Bool.true_and, Bool.and_true]
  · rw [decide_eq_false hjk, Bool.false_and, Bool.and_false]

theorem branchEvent_gate (w : Word) : evBranch &&& eventGate w = eventFlag w 2 0x40000 := event_gate w 2 (by decide)
theorem callEvent_flag (w : Word) : evCall &&& eventGate w = eventFlag w 3 0x80000 := event_gate w 3 (by decide)
theorem returnEvent_gate (w : Word) : evReturn &&& eventGate w = eventFlag w 4 0x100000 := event_gate w 4 (by decide)
theorem supervisorEvent_gate (w : Word) : evSupervisor &&& eventGate w = eventFlag w 6 0x400000 :=
  event_gate w 6 (by decide)

/-- The breakpoint flags pass: they are judged when they are noted. -/
theorem breakpoint_gate {x : Word} (h : x &&& 0x0F800000 = x) (w : Word) : x &&& eventGate w = x := by
  have hle : x ||| (x &&& (w &&& 0x7E) <<< 16) = x := by
    refine BitVec.eq_of_getLsbD_eq fun j _ => ?_
    rw [BitVec.getLsbD_or, BitVec.getLsbD_and]
    cases x.getLsbD j <;> rfl
  rw [eventGate, BitVec.and_or_distrib_left, h, BitVec.or_comm]
  exact hle

theorem Run.events_eq (r : Run) :
    r.events = eventFlag r.modes 1 0x20000 ||| (r.noted &&& eventGate r.modes) := by
  rw [Run.events, BitVec.and_or_distrib_right, instructionEvent_gate, BitVec.or_comm]
  rfl

/-! The start and the end of an instruction with no window open. -/

theorem State.dataBreak_disabled {s : State} (h : s.ctrl.bpcon = 0) (m a : Word) (n : Nat) (k : AccessKind) :
    s.dataBreak m a n k = 0 := by
  have hbit (j : Nat) : s.ctrl.bpcon.getLsbD j = false := by rw [h]; exact BitVec.getLsbD_zero
  have hzero : (0 : Word) ||| 0 = 0 := by decide
  simp only [State.dataBreak, hbit, Bool.false_and, Bool.false_eq_true, if_false, hzero, ite_self]

theorem State.fetchBreak_disabled {s : State} (h0 : s.ctrl.ipb0.getLsbD 0 = false)
    (h1 : s.ctrl.ipb1.getLsbD 0 = false) (m : Word) : s.fetchBreak m = 0 := by
  have hzero : (0 : Word) ||| 0 = 0 := by decide
  simp only [State.fetchBreak, h0, h1, Bool.false_and, Bool.false_eq_true, if_false, hzero, ite_self]

theorem State.noDataBreak_disabled {s : State} (h : s.ctrl.bpcon = 0) : s.NoDataBreak :=
  fun _ hu => State.dataBreak_disabled (by rw [hu, h]) s.tc

section
variable {s : State} (hd1 : s.trace.tcDelay.left = 0) (hd2 : s.trace.teDelay.left = 0)

include hd1 hd2

theorem State.begin_closed (len : Word) : s.begin len =
    ⟨s.advance len, s.tc, s.te, s.fetchBreak s.tc ||| s.dataBreak s.tc s.ip len.toNat .fetch, none, none⟩ := by
  have hage : s.ageWindows = s := by rw [State.ageWindows, if_pos ⟨hd1, hd2⟩]
  rw [State.begin, State.effectiveModes_closed hd1, State.effectiveTe_closed hd2, hage]
  rfl

/-- An instruction signals the events that it has noted; PC.te is as it leaves it (R573). -/
theorem runInstr_closed {len : Word} {body : Run → Except Stop Run} {r : Run}
    (hb : body ⟨s.advance len, s.tc, s.te, s.fetchBreak s.tc ||| s.dataBreak s.tc s.ip len.toNat .fetch,
      none, none⟩ = .ok r) (hp : r.post = none) :
    runInstr s len body = .next (r.signalled s) := by
  simp only [runInstr, State.begin_closed hd1 hd2, hb, Run.finish, hp]

omit hd1

theorem Run.signalled_none {r : Run} (hl : r.late = none) :
    r.signalled s = r.s.signal r.events r.s.te s.ip := by
  rw [Run.signalled, hl, State.effectiveTe_closed hd2]

theorem Run.signalled_some {r : Run} {w : Word} (hl : r.late = some w) :
    r.signalled s = (r.s.signal r.events r.s.te s.ip).setPctl w := by
  rw [Run.signalled, hl, State.effectiveTe_closed hd2]

end

/-- What the signalled events leave where TC, PC and the kept address are as before. -/
theorem State.signal_kept {s u : State} (htc : u.tc = s.tc) (hpc : u.pctl = s.pctl) (htr : u.trace = s.trace)
    (flags : Word) : u.signal flags u.te s.ip = if flags = 0 then u
      else
        { u with
          tc := s.tc ||| flags
          pctl := if s.te then s.pctl ||| 0x400 else s.pctl
          trace := { s.trace with traceIp := if s.te then s.ip else s.trace.traceIp } } := by
  have hte : u.te = s.te := by rw [State.te, State.te, hpc]
  have h10 : 1#32 <<< 10 = (0x400 : Word) := by decide
  rw [State.signal, hte]
  split
  · rfl
  · cases s.te with
    | true => simp only [if_true, htc, hpc, htr, putBit, h10]
    | false =>
      have ht : u.trace = { s.trace with traceIp := s.trace.traceIp } := htr
      simp only [Bool.false_eq_true, if_false, htc, ← hpc, ← htr]

/-- `u` with events signalled by an instruction of `s` that leaves TC, PC and the kept address alone. -/
def State.withEvents (s u : State) (flags : Word) : State :=
  if flags = 0 then u
  else
    { u with
      tc := s.tc ||| flags
      pctl := if s.te then s.pctl ||| 0x400 else s.pctl
      trace := { s.trace with traceIp := if s.te then s.ip else s.trace.traceIp } }

/-- The flags that an instruction leaves in TC, PC and the kept address; `te` is PC.te as it leaves it. -/
structure State.Marked (s : State) (te : Bool) (pc tc flags : Word) (t : State) : Prop where
  tc : t.tc = tc ||| flags
  pctl : t.pctl = if flags ≠ 0 ∧ te = true then pc ||| 0x400 else pc
  ip : t.trace.traceIp = if flags ≠ 0 ∧ te = true then s.ip else s.trace.traceIp

theorem State.signal_marked {s u : State} (hta : u.trace.traceIp = s.trace.traceIp) (flags : Word) :
    s.Marked u.te u.pctl u.tc flags (u.signal flags u.te s.ip) := by
  have h10 : 1#32 <<< 10 = (0x400 : Word) := by decide
  rw [State.signal]
  by_cases hf : flags = 0
  · rw [if_pos hf]
    exact ⟨by rw [hf]; exact BitVec.or_zero.symm, (if_neg fun h => h.1 hf).symm,
      hta.trans (if_neg fun h => h.1 hf).symm⟩
  · rw [if_neg hf]
    cases hte : u.te with
    | true =>
      exact ⟨rfl, (congrArg (u.pctl ||| ·) h10).trans (if_pos ⟨hf, rfl⟩).symm, (if_pos ⟨hf, rfl⟩).symm⟩
    | false => exact ⟨rfl, (if_neg fun h => Bool.false_ne_true h.2).symm,
        hta.trans (if_neg fun h => Bool.false_ne_true h.2).symm⟩

section
variable {s : State} (hd1 : s.trace.tcDelay.left = 0) (hd2 : s.trace.teDelay.left = 0)

include hd1 hd2

/-- An instruction that leaves TC, PC and the trace state alone. -/
theorem runInstr_withEvents {len : Word} {body : Run → Except Stop Run} {r : Run}
    (hb : body ⟨s.advance len, s.tc, s.te, s.fetchBreak s.tc ||| s.dataBreak s.tc s.ip len.toNat .fetch,
      none, none⟩ = .ok r) (hp : r.post = none) (hl : r.late = none) (hm : r.modes = s.tc)
    (htc : r.s.tc = s.tc) (hpc : r.s.pctl = s.pctl) (htr : r.s.trace = s.trace) :
    runInstr s len body =
      .next (s.withEvents r.s (eventFlag s.tc 1 0x20000 ||| (r.noted &&& eventGate s.tc))) := by
  rw [runInstr_closed hd1 hd2 hb hp, Run.signalled_none hd2 hl, State.signal_kept htc hpc htr, Run.events_eq, hm]
  rfl

/-! Instructions while no breakpoint register is in use. -/

variable (hi0 : s.ctrl.ipb0.getLsbD 0 = false) (hi1 : s.ctrl.ipb1.getLsbD 0 = false) (hbp : s.ctrl.bpcon = 0)

include hi0 hi1 hbp

omit hd1 hd2 in
theorem State.start_disabled (len : Word) :
    s.fetchBreak s.tc ||| s.dataBreak s.tc s.ip len.toNat .fetch = 0 := by
  rw [State.fetchBreak_disabled hi0 hi1, State.dataBreak_disabled hbp]
  exact BitVec.or_zero

theorem runInstr_events {len : Word} {body : Run → Except Stop Run} {r : Run}
    (hb : body ⟨s.advance len, s.tc, s.te, 0, none, none⟩ = .ok r) (hp : r.post = none) (hl : r.late = none)
    (hm : r.modes = s.tc) (htc : r.s.tc = s.tc) (hpc : r.s.pctl = s.pctl) (htr : r.s.trace = s.trace)
    {flags : Word} (hf : eventFlag s.tc 1 0x20000 ||| (r.noted &&& eventGate s.tc) = flags) :
    runInstr s len body = .next (s.withEvents r.s flags) := by
  rw [← hf]
  exact runInstr_withEvents hd1 hd2 (by rw [State.start_disabled hi0 hi1 hbp]; exact hb) hp hl hm htc hpc htr

theorem runInstr_marked {len : Word} {body : Run → Except Stop Run} {r : Run}
    (hb : body ⟨s.advance len, s.tc, s.te, 0, none, none⟩ = .ok r) (hp : r.post = none) (hl : r.late = none)
    (hm : r.modes = s.tc) (hta : r.s.trace.traceIp = s.trace.traceIp)
    {flags : Word} (hf : eventFlag s.tc 1 0x20000 ||| (r.noted &&& eventGate s.tc) = flags) :
    completesWith (runInstr s len body) fun t =>
      s.Marked r.s.te r.s.pctl r.s.tc flags t ∧ t.locals = r.s.locals := by
  have hev : r.events = flags := by rw [Run.events_eq, hm, hf]
  refine ⟨_, runInstr_closed hd1 hd2 (by rw [State.start_disabled hi0 hi1 hbp]; exact hb) hp, ?_⟩
  rw [Run.signalled_none hd2 hl, hev]
  exact ⟨State.signal_marked hta flags, State.signal_locals _ _ _ _⟩

end

/-! Calls. -/

theorem putBit_getLsbD_self (w : Word) {k : Nat} (hk : k < 32) (b : Bool) : (putBit w k b).getLsbD k = b := by
  have hone : (1#32 <<< k).getLsbD k = true := by
    rw [BitVec.getLsbD_shiftLeft, decide_eq_true hk, decide_eq_false (Nat.lt_irrefl k), Nat.sub_self]
    rfl
  cases b with
  | true => rw [putBit, if_pos rfl, BitVec.getLsbD_or, hone, Bool.or_true]
  | false => rw [putBit, if_neg Bool.false_ne_true, BitVec.getLsbD_and, BitVec.getLsbD_not, hone,
      Bool.not_true, Bool.and_false, Bool.and_false]

theorem State.newFrame_prereturn (s : State) (rip nfp target : Word) (p : Bool) (rt : BitVec 3) :
    ((s.newFrame rip nfp p rt).goTo target).pfp.getLsbD 3 = p := by
  obtain ⟨m, r, ts, h, -⟩ := s.newFrame_eq rip nfp p rt
  rw [h]
  exact putBit_getLsbD_self _ (by decide) p

section
variable {s : State} (hd1 : s.trace.tcDelay.left = 0) (hd2 : s.trace.teDelay.left = 0)
  (hi0 : s.ctrl.ipb0.getLsbD 0 = false) (hi1 : s.ctrl.ipb1.getLsbD 0 = false) (hbp : s.ctrl.bpcon = 0)

include hd1 hd2 hi0 hi1 hbp

/-- A body that ends in a call action marks its events and the prereturn flag of the new frame. -/
theorem runInstr_call_marked {len : Word} {body : Run → Except Stop Run} {u : State} {noted : Word}
    {target base : Word} {rt : BitVec 3}
    (hb : body ⟨s.advance len, s.tc, s.te, 0, none, none⟩ =
      (⟨u, s.tc, s.te, noted, none, none⟩ : Run).callAction target rt base)
    (hs : u.canSpill = true) (hcu : u.ctrl = s.ctrl) (htc : u.tc = s.tc)
    (hta : u.trace.traceIp = s.trace.traceIp) {flags : Word}
    (hf : eventFlag s.tc 1 0x20000 ||| ((noted ||| evCall) &&& eventGate s.tc) = flags) :
    completesWith (runInstr s len body) fun t =>
      s.Marked u.te u.pctl s.tc flags t ∧ t.pfp.getLsbD 3 = s.tc.getLsbD 3 := by
  rw [Run.callAction_quiet (r := ⟨u, s.tc, s.te, noted, none, none⟩) (State.noDataBreak_disabled hbp) hcu rfl
    hs] at hb
  obtain ⟨m, r, ts, h, -⟩ := u.newFrame_eq u.ip (roundUp16 base) (s.tc.getLsbD 3) rt
  have hpfp := u.newFrame_prereturn u.ip (roundUp16 base) target (s.tc.getLsbD 3) rt
  obtain ⟨t, hnext, hmark, hloc⟩ := runInstr_marked hd1 hd2 hi0 hi1 hbp hb rfl rfl rfl
    (by rw [h]; exact hta) hf
  refine ⟨t, hnext, ?_, ?_⟩
  · rw [h] at hmark
    rw [← htc]
    exact hmark
  · rw [State.pfp, State.getReg, hloc]
    exact hpfp

end

/-! Instructions with one event of their own. -/

theorem noEvent_gate (w : Word) : eventFlag w 1 0x20000 ||| (0 &&& eventGate w) = eventFlag w 1 0x20000 :=
  (congrArg (eventFlag w 1 0x20000 ||| ·) BitVec.zero_and).trans BitVec.or_zero

theorem oneEvent_gate {w ev f : Word} (h : ev &&& eventGate w = f) :
    eventFlag w 1 0x20000 ||| ((0 ||| ev) &&& eventGate w) = eventFlag w 1 0x20000 ||| f := by
  rw [show (0 : Word) ||| ev = ev from BitVec.zero_or, h]

theorem supervisorCall_gate (w : Word) :
    eventFlag w 1 0x20000 ||| ((0 ||| evSupervisor ||| evCall) &&& eventGate w) =
      eventFlag w 1 0x20000 ||| eventFlag w 3 0x80000 ||| eventFlag w 6 0x400000 := by
  rw [show (0 : Word) ||| evSupervisor = evSupervisor from BitVec.zero_or, BitVec.and_or_distrib_right,
    supervisorEvent_gate, callEvent_flag, BitVec.or_comm (eventFlag w 6 _), BitVec.or_assoc]

theorem breakpointEvent_gate (w : Word) (b : Bool) :
    eventFlag w 1 0x20000 ||| ((if b then 0 ||| evBreakpoint else 0) &&& eventGate w) =
      eventFlag w 1 0x20000 ||| (if b then 0x800000 else 0) := by
  cases b with
  | true => exact oneEvent_gate (breakpoint_gate (by decide) w)
  | false => exact (noEvent_gate w).trans BitVec.or_zero.symm

section
variable {s : State} (hd1 : s.trace.tcDelay.left = 0) (hd2 : s.trace.teDelay.left = 0)
  (hi0 : s.ctrl.ipb0.getLsbD 0 = false) (hi1 : s.ctrl.ipb1.getLsbD 0 = false) (hbp : s.ctrl.bpcon = 0)

include hd1 hd2 hi0 hi1 hbp

/-- `syncf`, `fmark`, `mark`. -/
theorem execMarks_events :
    exec .syncf s = .next (s.withEvents (s.advance 4) (eventFlag s.tc 1 0x20000)) ∧
    exec .fmark s = .next (s.withEvents (s.advance 4)
      (eventFlag s.tc 1 0x20000 ||| (if s.te then 0x800000 else 0))) ∧
    exec .mark s = .next (s.withEvents (s.advance 4)
      (eventFlag s.tc 1 0x20000 ||| (if s.te && s.tc.getLsbD 7 then 0x800000 else 0))) := by
  have hmark (b : Run → Bool) : runInstr s 4 (fun r => .ok (if b r then r.note evBreakpoint else r)) =
      .next (s.withEvents (s.advance 4) (eventFlag s.tc 1 0x20000 |||
        (if b ⟨s.advance 4, s.tc, s.te, 0, none, none⟩ then 0x800000 else 0))) :=
    runInstr_events hd1 hd2 hi0 hi1 hbp (r := ⟨s.advance 4, s.tc, s.te,
        if b ⟨s.advance 4, s.tc, s.te, 0, none, none⟩ then 0 ||| evBreakpoint else 0, none, none⟩)
      (by cases b ⟨s.advance 4, s.tc, s.te, 0, none, none⟩ <;> rfl) rfl rfl rfl rfl rfl rfl
      (breakpointEvent_gate s.tc _)
  refine ⟨?_, ?_, ?_⟩ <;> unfold exec
  · exact runInstr_events hd1 hd2 hi0 hi1 hbp (r := ⟨s.advance 4, s.tc, s.te, 0, none, none⟩) rfl rfl rfl rfl rfl
      rfl rfl (noEvent_gate s.tc)
  · exact hmark Run.te
  · exact hmark fun r => r.te && r.modes.getLsbD 7

/-- `b` and `bal`. -/
theorem execBranches_events (disp : BitVec 22) (p : Bool) :
    exec (.b disp p) s = .next (s.withEvents (s.goTo (s.ip + ctrlOffset disp))
      (eventFlag s.tc 1 0x20000 ||| eventFlag s.tc 2 0x40000)) ∧
    exec (.bal disp p) s = .next (s.withEvents
      (((if s.tc.getLsbD 3 then s.setReg 0 (s.pfp ||| 8) else s).setReg 30 (s.ip + 4)).goTo
        (s.ip + ctrlOffset disp)) (eventFlag s.tc 1 0x20000 ||| eventFlag s.tc 3 0x80000)) := by
  refine ⟨?_, ?_⟩ <;> unfold exec
  · exact runInstr_events hd1 hd2 hi0 hi1 hbp
      (r := Run.branch ⟨s.advance 4, s.tc, s.te, 0, none, none⟩ (s.ip + ctrlOffset disp)) rfl rfl rfl rfl rfl
      rfl rfl (oneEvent_gate (branchEvent_gate s.tc))
  · have h3 : 1#32 <<< 3 = (8 : Word) := by decide
    cases hc : s.tc.getLsbD 3 with
    | true =>
      refine runInstr_events hd1 hd2 hi0 hi1 hbp (r := ⟨((s.setReg 0 (s.pfp ||| 8)).setReg 30 (s.ip + 4)).goTo
        (s.ip + ctrlOffset disp), s.tc, s.te, 0 ||| evCall, none, none⟩) ?_ rfl rfl rfl rfl
        rfl rfl (oneEvent_gate (callEvent_flag s.tc))
      change Except.ok (Run.jump (Run.link ⟨(s.advance 4).setReg 30 (s.ip + 4), s.tc, s.te, 0, none, none⟩)
        (s.ip + ctrlOffset disp)) = _
      rw [Run.link, if_pos hc]
      change Except.ok (⟨State.goTo (((s.advance 4).setReg 30 (s.ip + 4)).setReg 0 (putBit s.pfp 3 true)) _, s.tc,
        s.te, 0 ||| evCall, none, none⟩ : Run) = _
      rw [putBit, if_pos rfl, h3]
      rfl
    | false =>
      refine runInstr_events hd1 hd2 hi0 hi1 hbp (r := ⟨(s.setReg 30 (s.ip + 4)).goTo
        (s.ip + ctrlOffset disp), s.tc, s.te, 0, none, none⟩) ?_ rfl rfl rfl rfl
        rfl rfl ?_
      · change Except.ok (Run.jump (Run.link ⟨(s.advance 4).setReg 30 (s.ip + 4), s.tc, s.te, 0, none, none⟩)
          (s.ip + ctrlOffset disp)) = _
        rw [Run.link, if_neg (by rw [hc]; nofun)]
        rfl
      · have hno : eventFlag s.tc 3 0x80000 = 0 := by rw [eventFlag, hc]; rfl
        rw [noEvent_gate, hno]
        exact BitVec.or_zero.symm

/-- `call` and `callx`. -/
theorem callAction_marked (hs : s.canSpill = true) (len target : Word) :
    completesWith (runInstr s len fun r => r.callAction target 0 s.sp) fun t =>
      s.Marked s.te s.pctl s.tc (eventFlag s.tc 1 0x20000 ||| eventFlag s.tc 3 0x80000) t ∧
        t.pfp.getLsbD 3 = s.tc.getLsbD 3 :=
  runInstr_call_marked hd1 hd2 hi0 hi1 hbp (u := s.advance len) (noted := 0) rfl hs rfl rfl rfl
    (oneEvent_gate (callEvent_flag s.tc))

/-- `calls`, by the kind of the entry. -/
theorem callSystem_marked (n : Word) :
    let calls (te : Bool) (pc flags : Word) : Prop :=
      completesWith (runInstr s 4 fun r => r.callSystem n) fun t =>
        s.Marked te pc s.tc flags t ∧ t.pfp.getLsbD 3 = s.tc.getLsbD 3
    let ssp := s.turn.readWord (s.tables.sptBase + 12)
    let local0 := eventFlag s.tc 1 0x20000 ||| eventFlag s.tc 3 0x80000
    ((s.systemEntry n).getLsbD 1 = false → s.canSpill = true → calls s.te s.pctl local0) ∧
    ((s.systemEntry n).getLsbD 1 = true → s.em = true →
      calls s.te s.pctl (local0 ||| eventFlag s.tc 6 0x400000)) ∧
    ((s.systemEntry n).getLsbD 1 = true → s.em = false →
      calls (ssp.getLsbD 0) ((s.pctl &&& 0xFFFFFFFC) ||| 2 ||| (ssp &&& 1))
        (local0 ||| eventFlag s.tc 6 0x400000)) := by
  intro calls ssp local0
  have hb := State.noDataBreak_disabled hbp
  refine ⟨fun he hs => ?_, fun he hem => ?_, fun he hem => ?_⟩
  · exact runInstr_call_marked hd1 hd2 hi0 hi1 hbp (u := s.advance 4) (noted := 0)
      (Run.callSystem_local hb n he) hs rfl rfl rfl (oneEvent_gate (callEvent_flag s.tc))
  · exact runInstr_call_marked hd1 hd2 hi0 hi1 hbp (u := s.advance 4) (noted := 0 ||| evSupervisor)
      (Run.callSystem_supervisor hb n he hem) (State.canSpill_of_em (s := s.advance 4) hem) rfl rfl rfl
      (supervisorCall_gate s.tc)
  · have hspill : (s.supervised 4).canSpill = true := State.canSpill_of_em
      ((putBit_em (by decide) _).trans (putBit_em_set s.pctl))
    have hte : (s.supervised 4).te = ssp.getLsbD 0 := putBit_getLsbD_self _ (by decide) _
    have hpc : (s.supervised 4).pctl = (s.pctl &&& 0xFFFFFFFC) ||| 2 ||| (ssp &&& 1) :=
      (putBit_mode_te _ _ _).trans (by rw [and_one_eq_ite]; rfl)
    rw [← hte, ← hpc]
    exact runInstr_call_marked hd1 hd2 hi0 hi1 hbp (noted := 0 ||| evSupervisor)
      (Run.callSystem_user hb n he hem) hspill (State.turn_ctrl (s.advance 4)) (State.turn_tc (s.advance 4))
      (congrArg TraceState.traceIp (State.turn_trace (s.advance 4)) :) (supervisorCall_gate s.tc)

end

/-! Returns. -/

/-- Leaving a frame keeps TC, PC and the trace state. -/
theorem State.leave_trace (s : State) :
    s.leave.tc = s.tc ∧ s.leave.pctl = s.pctl ∧ s.leave.trace = s.trace := by
  rw [State.leave, State.restoreLocals]
  split
  · exact ⟨rfl, rfl, rfl⟩
  · obtain ⟨m, ts, h, -⟩ := (s.setReg 31 (s.pfp &&& 0xFFFFFFF0)).reloadSet_eq (s.pfp &&& 0xFFFFFFF0)
    rw [h]
    exact ⟨rfl, rfl, rfl⟩

theorem returnEvents_gate (w : Word) :
    eventFlag w 1 0x20000 ||| ((0 ||| evReturn ||| evSupervisor) &&& eventGate w) =
      eventFlag w 1 0x20000 ||| eventFlag w 4 0x100000 ||| eventFlag w 6 0x400000 := by
  rw [show (0 : Word) ||| evReturn = evReturn from BitVec.zero_or, BitVec.and_or_distrib_right,
    supervisorEvent_gate, returnEvent_gate, BitVec.or_assoc]

/-- Other agents' turn does not look at TC. -/
theorem State.agentWrites_readByte_congr (cs : List Host.Cell) {s t : State} (hm : t.mem = s.mem)
    (hd : t.dma = s.dma) : (cs.foldl State.agentWrite t).mem = (cs.foldl State.agentWrite s).mem := by
  induction cs generalizing s t with
  | nil => exact hm
  | cons c cs ih =>
    have hmask : t.startedMask = s.startedMask := by rw [State.startedMask, State.startedMask, hd]
    refine ih ?_ ?_ <;> rw [State.agentWrite, State.agentWrite, hmask] <;> split
    · exact hm
    · rw [State.writeByte_mem, State.writeByte_mem, hm]
    · exact hd
    · exact hd

theorem State.turn_readWord_congr {s t : State} (hm : t.mem = s.mem) (hd : t.dma = s.dma)
    (hq : t.turns = s.turns) (hc : t.ctrl = s.ctrl) (a : Word) : t.turn.readWord a = s.turn.readWord a := by
  refine State.readWord_congr ?_ (by rw [State.turn_ctrl, State.turn_ctrl, hc]) a
  rw [State.turn, State.turn, hq]
  split
  · exact hm
  · exact State.agentWrites_readByte_congr _ hm hd

section
variable {s : State} (hd1 : s.trace.tcDelay.left = 0) (hd2 : s.trace.teDelay.left = 0)

include hd1 hd2

theorem runReturn_reserved (hk : (s.pfp &&& 7).toNat = 4 ∨ (s.pfp &&& 7).toNat = 5 ∨ (s.pfp &&& 7).toNat = 6) :
    s.runReturn = takeFault s s .unimplemented (s.ip + 4) := by
  have hres : s.reservedReturn = true := by
    rw [and_seven_toNat] at hk
    rw [State.reservedReturn]
    generalize s.pfp.extractLsb' 0 3 = k at hk ⊢
    revert hk
    revert k
    decide
  have hage : s.ageWindows = s := by rw [State.ageWindows, if_pos ⟨hd1, hd2⟩]
  rw [State.runReturn, hres, hage]
  rfl

/-- A prereturn event with PC.te off only sets its flag before the `ret`. -/
theorem execRet_runReturn (h : (s.pfp.getLsbD 3 && s.tc.getLsbD 5) = false ∨ s.te = false) :
    exec .ret s = ({ s with tc := if (s.pfp.getLsbD 3 && s.tc.getLsbD 5) = true then s.tc ||| 0x200000
                                  else s.tc } : State).runReturn := by
  have hdue : s.prereturnDue = (s.pfp.getLsbD 3 && s.tc.getLsbD 5) := by
    rw [State.prereturnDue, State.effectiveModes_closed hd1]
  unfold exec execRet
  rw [hdue, State.effectiveTe_closed hd2]
  cases hb : (s.pfp.getLsbD 3 && s.tc.getLsbD 5) with
  | false => rfl
  | true =>
    rw [hb] at h
    rw [h.resolve_left nofun]
    rfl

variable (hi0 : s.ctrl.ipb0.getLsbD 0 = false) (hi1 : s.ctrl.ipb1.getLsbD 0 = false) (hbp : s.ctrl.bpcon = 0)

include hi0 hi1 hbp

/-- A return that does not restore PC from a record. -/
theorem runReturn_marked :
    let returns (te : Bool) (pc flags : Word) : Prop := completesWith s.runReturn (s.Marked te pc s.tc flags)
    let plain := eventFlag s.tc 1 0x20000 ||| eventFlag s.tc 4 0x100000
    ((s.pfp &&& 7).toNat = 0 → returns s.te s.pctl plain) ∧
    ((s.pfp &&& 7).toNat = 2 ∨ (s.pfp &&& 7).toNat = 3 →
      returns (s.pfp.getLsbD 0) ((s.pctl &&& 0xFFFFFFFC) ||| (s.pfp &&& 1))
        (plain ||| eventFlag s.tc 6 0x400000)) ∧
    ((s.pfp &&& 7).toNat = 1 ∨ (s.pfp &&& 7).toNat = 7 → s.em = false → returns s.te s.pctl plain) ∧
    ((s.pfp &&& 7).toNat = 1 ∨ (s.pfp &&& 7).toNat = 7 → s.em = true → completesWith s.runReturn fun t =>
      t.tc = s.tc ||| plain ∧ t.pctl = s.turn.readWord (s.fp - 16)) := by
  intro returns plain
  have hb := State.noDataBreak_disabled hbp
  have hrun := State.runReturn_eq hd1 hd2
  have hplain : eventFlag s.tc 1 0x20000 ||| ((0 ||| evReturn) &&& eventGate s.tc) = plain :=
    oneEvent_gate (returnEvent_gate s.tc)
  have hmarked {u : State} {noted flags : Word} (htc : u.tc = s.tc)
      (hta : u.trace.traceIp = s.trace.traceIp)
      (hbody : s.retRun.returnAction = .ok ⟨u.leave, s.tc, s.te, noted, none, none⟩)
      (hf : eventFlag s.tc 1 0x20000 ||| (noted &&& eventGate s.tc) = flags) : returns u.te u.pctl flags := by
    obtain ⟨hltc, hlpc, hltr⟩ := u.leave_trace
    obtain ⟨t, hnext, hmark, -⟩ := runInstr_marked hd1 hd2 hi0 hi1 hbp (len := 4) (body := Run.returnAction)
      hbody rfl rfl rfl (by rw [hltr, hta]) hf
    have hte : u.leave.te = u.te := by rw [State.te, hlpc, State.te]
    rw [hte, hlpc, hltc, htc] at hmark
    exact ⟨t, hrun.trans hnext, hmark⟩
  have hrecord (hk : (s.pfp &&& 7).toNat = 1 ∨ (s.pfp &&& 7).toNat = 7) : ∃ nmi,
      s.retRun.returnAction = .ok
        { s.recordRun with
          s := ({ s.recordRun.s with intc := { s.recordRun.s.intc with nmiDepth := nmi } } : State).leave
          noted := 0 ||| evReturn } := by
    rcases hk with hk | hk
    · exact ⟨s.recordRun.s.intc.nmiDepth, Run.returnAction_fault hb hk⟩
    · obtain ⟨nmi, hnmi⟩ := s.recordRun.s.endNmi_eq
      exact ⟨nmi, (Run.returnAction_interrupt hb hk).trans (by rw [hnmi])⟩
  refine ⟨fun hk => ?_, fun hk => ?_, fun hk hem => ?_, fun hk hem => ?_⟩
  · exact hmarked (u := s.advance 4) rfl rfl (Run.returnAction_local hb hk) hplain
  · have h := hmarked (u := (s.advance 4).setPctl (putBit (putBit s.pctl 1 false) 0 (s.pfp.getLsbD 0))) rfl rfl
      (Run.returnAction_supervisor hb hk) (returnEvents_gate s.tc)
    have hte : State.te ((s.advance 4).setPctl (putBit (putBit s.pctl 1 false) 0 (s.pfp.getLsbD 0))) =
        s.pfp.getLsbD 0 := putBit_getLsbD_self _ (by decide) _
    rw [hte] at h
    exact userMode_pctl s.pctl s.pfp ▸ h
  · obtain ⟨nmi, hbody⟩ := hrecord hk
    have hrec : s.recordRun = ⟨{ s.advance 4 with ac := s.readWord (s.fp - 12) }, s.tc, s.te, 0, none, none⟩ := by
      rw [State.recordRun, hem]
      rfl
    rw [hrec] at hbody
    exact hmarked (u := { s.advance 4 with ac := s.readWord (s.fp - 12), intc := { s.intc with nmiDepth := nmi } })
      rfl rfl hbody hplain
  · obtain ⟨nmi, hbody⟩ := hrecord hk
    have hrec : s.recordRun = ⟨({ s.advance 4 with ac := s.readWord (s.fp - 12) } : State).turn, s.tc, s.te, 0,
        none, some (s.turn.readWord (s.fp - 16))⟩ := by
      rw [State.recordRun, hem]
      rfl
    rw [hrec] at hbody
    have hstart := State.start_disabled hi0 hi1 hbp 4
    have hclosed := runInstr_closed hd1 hd2 (len := 4) (body := Run.returnAction) (by rw [hstart]; exact hbody) rfl
    rw [Run.signalled_some hd2 rfl] at hclosed
    refine ⟨_, hrun.trans hclosed, ?_, rfl⟩
    obtain ⟨hltc, -, hltr⟩ := State.leave_trace
      { ({ s.advance 4 with ac := s.readWord (s.fp - 12) } : State).turn with
        intc := { ({ s.advance 4 with ac := s.readWord (s.fp - 12) } : State).turn.intc with nmiDepth := nmi } }
    have hturn := State.turn_tc { s.advance 4 with ac := s.readWord (s.fp - 12) }
    have htrace := State.turn_trace { s.advance 4 with ac := s.readWord (s.fp - 12) }
    have hmark := State.signal_marked (s := s) (congrArg TraceState.traceIp (hltr.trans htrace)) plain
    rw [Run.events_eq]
    refine (congrArg (fun f => (State.signal _ f _ s.ip).tc) hplain).trans (hmark.tc.trans ?_)
    exact congrArg (· ||| plain) (hltc.trans hturn)

end

/-! Breakpoints (R578, R583). -/

/-- An instruction-address breakpoint. -/
theorem State.fetchBreak_hit {s : State} (hip : s.ip &&& 3 = 0) (hi0 : s.ctrl.ipb0 = s.ip ||| 1)
    (hi1 : s.ctrl.ipb1.getLsbD 0 = false) (h7 : s.tc.getLsbD 7 = true) : s.fetchBreak s.tc = 0x4800000 := by
  have hone : (1 : Word).getLsbD 0 = true := by decide
  have hen : s.ctrl.ipb0.getLsbD 0 = true := by rw [hi0, BitVec.getLsbD_or, hone, Bool.or_true]
  have haddr : alignTarget s.ctrl.ipb0 = s.ip := by
    have hmask : (1 : Word) &&& 0xFFFFFFFC = 0#32 := by decide
    rw [hi0, alignTarget, BitVec.and_or_distrib_right, hmask, BitVec.or_zero]
    exact alignTarget_of_aligned hip
  rw [State.fetchBreak, if_pos h7, hen, hi1, haddr, beq_self_eq_true, Bool.false_and]
  decide

/-- The data breakpoints that an access matches, register by register. -/
theorem State.dataBreak_eq (s : State) (a : Word) (n : Nat) (k : AccessKind) : s.dataBreak s.tc a n k =
    (if s.tc.getLsbD 7 && s.ctrl.bpcon.getLsbD Config.bpconEnable0.val &&
        modeSelects (field2 s.ctrl.bpcon Config.bpconMode0) k && decide ((s.ctrl.dab0 - a).toNat < n)
      then 0x1800000 else 0) |||
    (if s.tc.getLsbD 7 && s.ctrl.bpcon.getLsbD Config.bpconEnable1.val &&
        modeSelects (field2 s.ctrl.bpcon Config.bpconMode1) k && decide ((s.ctrl.dab1 - a).toNat < n)
      then 0x2800000 else 0) := by
  rw [State.dataBreak]
  cases s.tc.getLsbD 7 with
  | true => simp only [Bool.true_and]; rfl
  | false => simp only [Bool.false_and, Bool.false_eq_true, if_false]; decide

theorem State.dataBreak_gate (s : State) (a : Word) (n : Nat) (k : AccessKind) :
    s.dataBreak s.tc a n k &&& eventGate s.tc = s.dataBreak s.tc a n k := by
  have hflags : ∀ b c : Bool, ((if b then 0x1800000 else 0 : Word) ||| (if c then 0x2800000 else 0)) &&& 0x0F800000 =
      (if b then 0x1800000 else 0) ||| (if c then 0x2800000 else 0) := by decide
  refine breakpoint_gate ?_ s.tc
  rw [State.dataBreak_eq]
  exact hflags _ _

section
variable {s : State} (hd1 : s.trace.tcDelay.left = 0) (hd2 : s.trace.teDelay.left = 0)
  (hi0 : s.ctrl.ipb0.getLsbD 0 = false) (hi1 : s.ctrl.ipb1.getLsbD 0 = false)

include hi0 hi1

theorem State.start_data (len : Word) : s.fetchBreak s.tc ||| s.dataBreak s.tc s.ip len.toNat .fetch =
    s.dataBreak s.tc s.ip len.toNat .fetch := by
  rw [State.fetchBreak_disabled hi0 hi1]
  exact BitVec.zero_or

include hd1 hd2

/-- A load or a store that neither faults nor stops signals its own breakpoints after those of its fetch. -/
theorem runChecked_access_events {us : List Use} (hu : s.canUseAll us = true) {len a : Word} {k : Nat}
    {kind : AccessKind} (ha : s.canAccess a k = true)
    (hp : kind = .store → s.em = true ∨ s.protectedRange a k = false) {f : Run → Except Stop Run} {u : State}
    (hf : ∀ w, f ⟨s.advance len, s.tc, s.te, w, none, none⟩ = .ok ⟨u, s.tc, s.te, w, none, none⟩)
    (htc : u.tc = s.tc) (hpc : u.pctl = s.pctl) (htr : u.trace = s.trace) :
    runChecked s len us (fun r => r.access a k kind >>= f) = .next (s.withEvents u
      (eventFlag s.tc 1 0x20000 ||| s.dataBreak s.tc s.ip len.toNat .fetch ||| s.dataBreak s.tc a k kind)) := by
  have hacc : Run.access ⟨s.advance len, s.tc, s.te, s.dataBreak s.tc s.ip len.toNat .fetch, none, none⟩ a k kind =
      .ok ⟨s.advance len, s.tc, s.te, s.dataBreak s.tc s.ip len.toNat .fetch ||| s.dataBreak s.tc a k kind,
        none, none⟩ :=
    Run.access_ok (r := ⟨s.advance len, s.tc, s.te, s.dataBreak s.tc s.ip len.toNat .fetch, none, none⟩) ha hp
  rw [runChecked_of_canUse hu]
  refine (runInstr_withEvents hd1 hd2 (r := ⟨u, s.tc, s.te, s.dataBreak s.tc s.ip len.toNat .fetch |||
    s.dataBreak s.tc a k kind, none, none⟩) ?_ rfl rfl rfl htc hpc htr).trans ?_
  · rw [State.start_data hi0 hi1, hacc]
    exact hf _
  · rw [BitVec.and_or_distrib_right, State.dataBreak_gate, State.dataBreak_gate, BitVec.or_assoc]

end

/-- Settles O44. -/
theorem traceEvents : Obligations.TraceEvents := by
  intro s hd1 hd2 hi1 flag ifl bfl cfl rtf sfl brf ends marks
  refine ⟨?_, ?_, ?_⟩
  case refine_1 =>
    intro hi0 hbp
    obtain ⟨hsyncf, hfmark, hmark⟩ := execMarks_events hd1 hd2 hi0 hi1 hbp
    have hmarked {te : Bool} {pc tc flags : Word} {t : State} (h : s.Marked te pc tc flags t) :
      marks te pc tc flags t := ⟨h.tc, h.pctl, h.ip⟩
    refine ⟨hsyncf, hfmark, ?_, ?_, ?_, ?_, ?_⟩
    case refine_1 =>
      have hboth : ∀ b c : Bool, (if b && c then 0x800000 else 0 : Word) =
          if c then (if b then 0x800000 else 0) else 0 := by decide
      rw [hboth] at hmark
      exact hmark
    case refine_2 =>
      intro disp p target
      obtain ⟨hbr, hbal⟩ := execBranches_events hd1 hd2 hi0 hi1 hbp disp p
      rw [ctrlOffset_eq_ofInt] at hbr hbal
      refine ⟨hbr, hbal, fun hs => ?_⟩
      obtain ⟨t, hnext, hm, hp⟩ := callAction_marked hd1 hd2 hi0 hi1 hbp hs 4 (s.ip + ctrlOffset disp)
      exact ⟨t, hnext, hmarked hm, hp⟩
    case refine_3 =>
      intro efa hs
      obtain ⟨t, hnext, hm, hp⟩ := callAction_marked hd1 hd2 hi0 hi1 hbp hs efa.len
        (alignTarget (s.address s.ip efa))
      exact ⟨t, hnext, hmarked hm, hp⟩
    case refine_4 =>
      intro src hu hn entry ssp calls
      obtain ⟨hloc, hsup, huser⟩ := callSystem_marked hd1 hd2 hi0 hi1 hbp (s.value (srcOperand src) 0)
      have hrun {te : Bool} {pc flags : Word} (h : completesWith (runInstr s 4 fun r =>
          r.callSystem (s.value (srcOperand src) 0)) fun t =>
            s.Marked te pc s.tc flags t ∧ t.pfp.getLsbD 3 = s.tc.getLsbD 3) : calls te pc flags := by
        obtain ⟨t, hnext, hm, hp⟩ := h
        exact ⟨t, (execCalls_callSystem hu hn).trans hnext, hmarked hm, hp⟩
      exact ⟨fun he hs => hrun (hloc he hs), fun he hem => hrun (hsup he hem), fun he hem => hrun (huser he hem)⟩
    case refine_5 =>
      intro kind due tc returns hdue
      have hrun : exec .ret s = ({ s with tc := tc } : State).runReturn := execRet_runReturn hd1 hd2 hdue
      have hflag {k : Nat} (hk : (0x200000 : Word).getLsbD k = false) (x : Word) :
          eventFlag tc k x = eventFlag s.tc k x := by
        have hbit : tc.getLsbD k = s.tc.getLsbD k := by
          simp only [tc]
          split
          · rw [BitVec.getLsbD_or, hk, Bool.or_false]
          · rfl
        rw [eventFlag, eventFlag, hbit]
      have hread : ({ s with tc := tc } : State).turn.readWord (s.fp - 16) = s.turn.readWord (s.fp - 16) :=
        State.turn_readWord_congr (s := s) (t := { s with tc := tc }) rfl rfl rfl rfl _
      obtain ⟨h0, h23, huser, hsuper⟩ := runReturn_marked (s := { s with tc := tc }) hd1 hd2 hi0 hi1 hbp
      rw [← hrun, hflag (by decide), hflag (by decide)] at h0 h23 huser hsuper
      rw [hflag (by decide)] at h23
      have hret {te : Bool} {pc flags : Word} (h : completesWith (exec .ret s)
          (State.Marked { s with tc := tc } te pc tc flags)) : returns te pc flags := by
        obtain ⟨t, hnext, hm⟩ := h
        exact ⟨t, hnext, hm.tc, hm.pctl, hm.ip⟩
      refine ⟨fun hk => hret (h0 hk), fun hk => hret (h23 hk), fun hk hem => hret (huser hk hem), fun hk hem => ?_,
        fun hk => hrun.trans (runReturn_reserved (s := { s with tc := tc }) hd1 hd2 hk)⟩
      obtain ⟨t, hnext, htc, hpc⟩ := hsuper hk hem
      exact ⟨t, hnext, htc.trans (BitVec.or_assoc _ _ _).symm, hpc.trans hread⟩
  case refine_2 =>
    intro hbp hip hi0 h7
    have hnone : s.fetchBreak s.tc ||| s.dataBreak s.tc s.ip (4 : Word).toNat .fetch = 0x4800000 := by
      rw [State.fetchBreak_hit hip hi0 hi1 h7, State.dataBreak_disabled hbp]
      exact BitVec.or_zero
    unfold exec
    refine (runInstr_withEvents hd1 hd2 (len := 4) rfl rfl rfl rfl rfl rfl rfl).trans ?_
    have hbrk : (0x4800000 : Word) &&& 0x0F800000 = 0x4800000 := by decide
    rw [hnone, breakpoint_gate hbrk]
    rfl
  case refine_3 =>
    intro hi0 efa n a u hit hits fetched
    have hfetch : s.dataBreak s.tc s.ip efa.len.toNat .fetch = fetched := by
      have hsel : ∀ m : BitVec 2, modeSelects m .fetch = (m == 2 || m == 3) := by decide
      rw [State.dataBreak_eq, hsel, hsel]
      rfl
    have hload : s.dataBreak s.tc a 4 .load = hits (fun m => m != 0) a 4 := State.dataBreak_eq _ _ _ _
    have hstore : s.dataBreak s.tc a 4 .store = hits (fun _ => true) a 4 := State.dataBreak_eq _ _ _ _
    have hn0 : n + BitVec.ofNat 5 0 = n := BitVec.add_zero n
    rw [← hfetch, ← hload, ← hstore]
    refine ⟨fun ha hw => ?_, fun ha hw => ?_, ?_⟩ <;> unfold exec
    · refine runChecked_access_events hd1 hd2 hi0 hi1 (s.canUseAll_reg n) (kind := .load)
        (u := u.setReg n (s.readWord a)) ha nofun (fun w => ?_) (State.setReg_tc u _ _) (State.setReg_pctl u _ _)
        (State.setReg_trace u _ _)
      have hread : (s.advance efa.len).readRequests a 4 0 4 = (s.readBytes a 4, s.advance efa.len) := by
        rw [State.readRequests_whole (s := s.advance efa.len) hw, BitVec.add_zero]
        rfl
      dsimp only
      rw [hread, State.wordOf_readBytes]
      exact congrArg (fun m => Except.ok (⟨u.setReg m (s.readWord a), s.tc, s.te, w, none, none⟩ : Run)) hn0
    · obtain ⟨hacc, hp⟩ := State.canStore_iff.1 ha
      refine runChecked_access_events hd1 hd2 hi0 hi1 (s.canUseAll_reg n) (kind := .store)
        (u := u.writeWord a (s.getReg n)) hacc (fun _ => hp) (fun w => ?_) (State.writeWord_tc u _ _)
        (State.writeWord_pctl u _ _) (State.writeWord_trace u _ _)
      exact congrArg (fun t => Except.ok (⟨t, s.tc, s.te, w, none, none⟩ : Run))
        (State.writeRequests_at (s := u) hw (bytesOfWord (s.bigEndian a) (s.getReg n)))
    · refine (runChecked_of_canUse (s.canUseAll_reg n) _).trans ?_
      refine (runInstr_withEvents hd1 hd2 (r := ⟨u.setReg n a, s.tc, s.te,
        s.dataBreak s.tc s.ip efa.len.toNat .fetch, none, none⟩) ?_ rfl rfl rfl (State.setReg_tc u _ _)
        (State.setReg_pctl u _ _) (State.setReg_trace u _ _)).trans ?_
      · rw [State.start_data hi0 hi1]
        exact congrArg (fun m => Except.ok (⟨u.setReg m a, s.tc, s.te,
          s.dataBreak s.tc s.ip efa.len.toNat .fetch, none, none⟩ : Run)) hn0
      · rw [State.dataBreak_gate]
        rfl

end Sys2Proof.Machine
end

section
/-! Initialization (`70_reset_and_hazards.md` R602): O9. -/

namespace Sys2Proof.Machine

/-! Control registers (`10_state.md` R59). -/

/-- Four registers in a row replaced, from place `i` on. -/
def setFour (v : Vector Word 16) (i : Nat) (hi : i + 3 < 16) (w : Nat → Word) : Vector Word 16 :=
  (((v.set i (w 0)).set (i + 1) (w 1)).set (i + 2) (w 2)).set (i + 3) (w 3)

theorem get_setFour (v : Vector Word 16) {i : Nat} (hi : i + 3 < 16) (w : Nat → Word) (k : Fin 16) :
    (setFour v i hi w).get k = if i ≤ k.val ∧ k.val < i + 4 then w (k.val - i) else v.get k := by
  have hget (u : Vector Word 16) : u.get k = u[k.val] := rfl
  simp only [setFour, hget, Vector.getElem_set]
  by_cases hk : i ≤ k.val ∧ k.val < i + 4
  · rw [if_pos hk]
    obtain ⟨j, hj⟩ : ∃ j, k.val = i + j := ⟨k.val - i, by omega⟩
    have hj4 : j < 4 := by omega
    simp only [hj, Nat.add_sub_cancel_left]
    match j, hj4 with
    | 0, _ => simp
    | 1, _ => simp
    | 2, _ => simp
    | 3, _ => simp
  · rw [if_neg hk, if_neg (by omega), if_neg (by omega), if_neg (by omega), if_neg (by omega)]

/-- The control registers that initialization loads: `w` gives the word at a distance from the start of
the control table. -/
def initialControls (w : Word → Word) : ControlRegs where
  ipb0 := w 0
  ipb1 := w 4
  dab0 := w 8
  dab1 := w 12
  imap0 := w 16
  imap1 := w 20
  imap2 := w 24
  icon := w 28
  mcon := Vector.ofFn fun k => w (32 + BitVec.ofNat 32 (4 * k.val))
  bpcon := w 96
  bcon := w 104 ||| 1

/-- The word of the control table at a distance, as initialization reads it (R602; log 37). -/
def State.tableWord (s : State) (k : Word) : Word := s.mem.readWord false (s.tables.ctrlTableBase + k)

/-- A group from a table of words. -/
def State.loadGroupFrom (w : Word → Word) (s : State) (g : Nat) : State :=
  s.loadGroup g (w (BitVec.ofNat 32 (16 * g))) (w (BitVec.ofNat 32 (16 * g) + 4))
    (w (BitVec.ofNat 32 (16 * g) + 8)) (w (BitVec.ofNat 32 (16 * g) + 12))

/-- Loading a group leaves the table where it is. -/
theorem State.foldl_initGroup (gs : List Nat) (s : State) :
    gs.foldl State.initGroup s = gs.foldl (State.loadGroupFrom s.tableWord) s := by
  have key (t : State) (ht : t.tableWord = s.tableWord) :
      gs.foldl State.initGroup t = gs.foldl (State.loadGroupFrom s.tableWord) t := by
    induction gs generalizing t with
    | nil => rfl
    | cons g gs ih =>
      have hg : t.initGroup g = t.loadGroupFrom s.tableWord g := by
        rw [State.loadGroupFrom, ← ht]
        simp only [State.initGroup, State.groupAddress, State.tableWord, BitVec.add_assoc]
      rw [List.foldl_cons, List.foldl_cons, hg]
      refine ih _ ?_
      obtain ⟨c, tc, h⟩ := t.loadGroup_eq g (s.tableWord (BitVec.ofNat 32 (16 * g)))
        (s.tableWord (BitVec.ofNat 32 (16 * g) + 4)) (s.tableWord (BitVec.ofNat 32 (16 * g) + 8))
        (s.tableWord (BitVec.ofNat 32 (16 * g) + 12))
      rw [State.loadGroupFrom, h, ← ht]
      rfl
  exact key s rfl

/-- The memory regions, group by group. -/
def loadRegions (w : Word → Word) (v : Vector Word 16) : Vector Word 16 :=
  setFour (setFour (setFour (setFour v 0 (by decide) fun k => w (32 + BitVec.ofNat 32 (4 * k)))
    4 (by decide) fun k => w (48 + BitVec.ofNat 32 (4 * k))) 8 (by decide)
    fun k => w (64 + BitVec.ofNat 32 (4 * k))) 12 (by decide) fun k => w (80 + BitVec.ofNat 32 (4 * k))

theorem loadRegions_eq (w : Word → Word) (v : Vector Word 16) :
    loadRegions w v = (initialControls w).mcon := by
  refine Vector.ext fun k hk => ?_
  have hmcon : (initialControls w).mcon[k] = w (32 + BitVec.ofNat 32 (4 * k)) := Vector.getElem_ofFn hk
  refine Eq.trans (b := (loadRegions w v).get ⟨k, hk⟩) rfl ?_
  rw [hmcon, loadRegions, get_setFour, get_setFour, get_setFour, get_setFour]
  split_ifs with h12 h8 h4 h0
  · exact congrArg w (by bv_omega)
  · exact congrArg w (by bv_omega)
  · exact congrArg w (by bv_omega)
  · rfl
  · omega

theorem State.foldl_loadGroupFrom (w : Word → Word) (s : State) :
    (List.range 7).foldl (State.loadGroupFrom w) s =
      { s with
        ctrl := { initialControls w with mcon := loadRegions w s.ctrl.mcon, bcon := w 104 }
        tc := w 100 } := by
  have hrange : List.range 7 = [0, 1, 2, 3, 4, 5, 6] := by decide
  simp only [hrange, List.foldl, State.loadGroupFrom, State.loadGroup, initialControls, loadRegions, setFour,
    Nat.reduceMul, BitVec.reduceAdd, BitVec.ofNat_eq_ofNat, Nat.reduceAdd]

theorem State.initControls_words (s : State) : s.initControls =
    { s with ctrl := initialControls s.tableWord, tc := s.tableWord 100 } := by
  have hbcon (x : Word) : putBit x 0 true = x ||| 1 := rfl
  rw [State.initControls, State.foldl_initGroup, State.foldl_loadGroupFrom, loadRegions_eq]
  simp only [hbcon]
  rfl

/-! What every initialization leaves (R602). -/

/-- A state that has taken over the parameters of an initialization. -/
def State.withBoot (s : State) (b : Boot) : State := { s with tables := b.tables, config := b.config }

/-- After the interrupts are set up the NMI vector is in word 0 of data RAM, and memory is else as before. -/
theorem State.initInterrupts_memory {s t : State} (hw : s.mem.wf = true)
    (hm : t.mem = (s.writeWord 0 (s.mem.readWord false (s.tables.intTableBase + 0x3E4))).mem)
    (hc : t.ctrl = s.ctrl) :
    t.readWord 0 = s.mem.readWord false (s.tables.intTableBase + 0x3E4) ∧
      ∀ x : Word, 4 ≤ x.toNat → t.readByte x = s.mem.read x.toNat := by
  generalize s.mem.readWord false (s.tables.intTableBase + 0x3E4) = v at hm ⊢
  refine ⟨?_, fun x hx => ?_⟩
  · rw [State.readWord_congr (s := s.writeWord 0 v) hm (hc.trans (State.writeWord_ctrl s 0 v).symm)]
    exact State.readWord_writeWord_same hw 0 v
  · have hx' : 4 ≤ (x - 0).toNat := hx.trans_eq (congrArg BitVec.toNat (BitVec.sub_zero x).symm)
    refine Eq.trans (congrArg (fun m : Memory => m.read x.toNat) hm) ?_
    exact State.readByte_writeBytes_outside hw (by rwa [bytesOfWord_length])

theorem State.initialize_initialized (s : State) (k : InitKind) (b : Boot) :
    (s.initialize k b).Initialized b s.mem := by
  have hctl : State.initControls { s with tables := b.tables, config := b.config } =
      { s with
        tables := b.tables
        config := b.config
        ctrl := initialControls (s.withBoot b).tableWord
        tc := (s.withBoot b).tableWord 100 } := State.initControls_words (s.withBoot b)
  generalize hu : State.initControls { s with tables := b.tables, config := b.config } = u at hctl
  have hregions (k : Fin 16) : (initialControls (s.withBoot b).tableWord).mcon.get k =
        s.mem.readWord false (b.tables.ctrlTableBase + 32 + BitVec.ofNat 32 (4 * k.val)) := by
    refine (Vector.getElem_ofFn k.isLt).trans ?_
    rw [State.tableWord, ← BitVec.add_assoc]
    rfl
  have hmemory (t : State) (hm : t.mem = (u.writeWord 0 (u.mem.readWord false (u.tables.intTableBase + 0x3E4))).mem)
      (hc : t.ctrl = u.ctrl) (hw : s.mem.wf = true) := State.initInterrupts_memory (s := u) (t := t)
        (by rw [hctl]; exact hw) hm hc
  obtain ⟨m, hm⟩ := u.writeWord_mem 0 (u.mem.readWord false (u.tables.intTableBase + 0x3E4))
  rw [hm, hctl] at hmemory
  have hfp (g : Vector Word 16) (t : State) (h : t.globals = g.set 15 (roundUp16 b.tables.intStackBase)) :
      t.fp = (b.tables.intStackBase + 15) &&& 0xFFFFFFF0 := State.fp_of_globals h
  have hsp (g : Vector Word 16) (t : State) (h : t.globals = g.set 15 (roundUp16 b.tables.intStackBase))
      (h1 : t.sp = roundUp16 b.tables.intStackBase + 64) : t.sp = t.fp + 64 := by
    rw [h1, State.fp_of_globals h]
  cases k <;> rw [State.initialize, hu, State.initInterrupts, hm, hctl]
  all_goals
    exact ⟨rfl, rfl, rfl, rfl, rfl, rfl, rfl, hregions, rfl, rfl, rfl, fun hw => (hmemory _ rfl rfl hw).1,
      fun hw => (hmemory _ rfl rfl hw).2, rfl, ⟨rfl, rfl⟩, hfp _ _ rfl, hsp _ _ rfl rfl, rfl, rfl, rfl,
      rfl⟩

/-- What the kinds of initialization make of the masks and of the DMA controller. -/
theorem State.initialize_devices (s : State) (b : Boot) :
    ((s.initialize .powerUp b).intc.imsk = 0 ∧
      (s.initialize .powerUp b).dma.started = Vector.replicate 4 false) ∧
    ((s.initialize .warmReset b).intc.imsk = 0 ∧ (s.initialize .warmReset b).intc.ipnd = s.intc.ipnd ∧
      (s.initialize .warmReset b).dma.started = Vector.replicate 4 false) ∧
    ((s.initialize .reinitialize b).intc.imsk = s.intc.imsk ∧
      (s.initialize .reinitialize b).intc.ipnd = s.intc.ipnd ∧
      (s.initialize .reinitialize b).dma = s.dma) := by
  obtain ⟨c, tc, h, -⟩ := State.initControls_eq { s with tables := b.tables, config := b.config }
  obtain ⟨m, hm⟩ := State.writeWord_mem { s with tables := b.tables, config := b.config, ctrl := c, tc := tc } 0
    (s.mem.readWord false (b.tables.intTableBase + 0x3E4))
  simp only [State.initialize, h, State.initInterrupts, hm]
  exact ⟨⟨rfl, rfl⟩, ⟨rfl, rfl, rfl⟩, rfl, rfl, rfl⟩

/-- Settles O9. -/
theorem resetState : Obligations.ResetState := by
  refine ⟨?reset, fun b m => ?powerUp, fun s e rest he hr => ?warm⟩
  case reset => decide
  case powerUp =>
    obtain ⟨hdev, -⟩ := ({ State.reset with mem := m, boot := b, draws := 0 } : State).initialize_devices b
    exact ⟨State.initialize_initialized _ .powerUp b, hdev⟩
  case warm =>
    have hrun : step s = .next (({ s with intc := { s.intc with events := rest } } : State).warmReset e) := by
      rw [step, State.boundary, he]
      exact if_pos hr
    obtain ⟨m, hm⟩ := State.agentWrites_eq e.writes
      { s with intc := { s.intc with events := rest },
               dma := { s.dma with started := Vector.replicate 4 false } }
    have hquiet (h : e.writes = []) : m = s.mem := by
      rw [h] at hm
      exact (congrArg (fun t : State => t.mem) hm).symm
    refine ⟨_, hrun, m, ?_⟩
    rw [State.warmReset, hm]
    generalize hu : ({ s with mem := m, intc := { s.intc with events := rest },
                              dma := { s.dma with started := Vector.replicate 4 false } } : State) = u
    have hinit := u.initialize_initialized .warmReset s.boot
    obtain ⟨-, -, -, -, -, -, -, hboot, -, -, -, -, -, -, hevents, -⟩ := u.initialize_cases .warmReset s.boot
    obtain ⟨-, ⟨himsk, hipnd, hstarted⟩, -⟩ := u.initialize_devices s.boot
    subst hu
    exact ⟨⟨hinit.ip, hinit.ac, hinit.pctl, hinit.tables, hinit.config, hinit.breakpoints, hinit.interrupts,
      hinit.regions, hinit.bpcon, hinit.tc, hinit.bcon, hinit.nmiVector, hinit.memory, hinit.swPriority, hinit.nmi,
      hinit.fp, hinit.sp, hinit.rcache, hinit.icache⟩, hquiet, hboot, himsk, hipnd, hevents, rfl, rfl, hstarted⟩

end Sys2Proof.Machine
end

section
/-! `sysctl` (`46_atomic_procmgmt.md` R465 to R470): O48, O49. -/

namespace Sys2Proof.Machine

section
variable {s : State} (h : s.untraced = true) (hem : s.em = true) {src1 src2 : Src} {src3 : Src3}
  (hu : s.canUseAll [(srcOperand src1).one, (srcOperand src2).one, (src3Operand src3).one] = true)

include hem hu in
theorem execSysctl_control : exec (.sysctl src1 src2 src3) s = runInstr s 4 fun r =>
    r.control ((s.value (srcOperand src1) 0).extractLsb' 8 8) ((s.value (srcOperand src1) 0).extractLsb' 0 8)
      (s.value (srcOperand src2) 0) (s.value (src3Operand src3) 0) := by
  have hmode : ¬s.em = false := ne_false_of_eq_true hem
  unfold exec
  exact (if_neg hmode).trans (runChecked_of_canUse hu _)

include h in
/-- A message that changes the state and notes no event. -/
theorem runInstr_change {body : Run → Except Stop Run} {u : State}
    (hb : body ⟨s.advance 4, s.tc, s.te, 0, none, none⟩ = .ok ⟨u, s.tc, s.te, 0, none, none⟩) :
    runInstr s 4 body = .next u :=
  runInstr_untraced h hb (s.untraced_iff.1 h).1 BitVec.zero_and rfl rfl

theorem runInstr_refused {len : Word} {body : Run → Except Stop Run} {x : Refusal}
    (hb : body (s.begin len) = .error (.refuse x)) : runInstr s len body = .refused x := by
  rw [runInstr, hb]

end

/-! The messages. -/

section
variable (r : Run) {msg : BitVec 8} (f : BitVec 8) (a b : Word)

theorem Run.control_request (h : msg.toNat = 0) : r.control msg f a b = .ok (r.requestInterrupt f) := by
  rw [Run.control, h]; rfl

theorem Run.control_invalidate (h : msg.toNat = 1) : r.control msg f a b = .ok (r.modify State.invalidateCache) := by
  rw [Run.control, h]; rfl

theorem Run.control_configure (h : msg.toNat = 2) : r.control msg f a b = r.configureCache f a := by
  rw [Run.control, h]; rfl

theorem Run.control_reinitialize (h : msg.toNat = 3) : r.control msg f a b = .ok (r.reinitialize a b) := by
  rw [Run.control, h]; rfl

theorem Run.control_load (h : msg.toNat = 4) : r.control msg f a b = r.loadControls f := by
  rw [Run.control, h]; rfl

theorem Run.control_undefined (h : 4 < msg.toNat) : r.control msg f a b = .error (.trap .invalidOperand) := by
  obtain ⟨k, hk⟩ : ∃ k, msg.toNat = k + 5 := ⟨msg.toNat - 5, by omega⟩
  rw [Run.control, hk]
  rfl

end

theorem inDataRam_eq_false_iff (a : Word) : inDataRam a = false ↔ 0x400 ≤ a.toNat := by
  rw [inDataRam, decide_eq_false_iff_not, Nat.not_lt]

section
variable {s : State} (h : s.untraced = true)

include h

theorem Run.requestInterrupt_untraced (v : BitVec 8) :
    Run.requestInterrupt ⟨s.advance 4, s.tc, s.te, 0, none, none⟩ v =
      ⟨if 8 ≤ v.toNat then ((s.advance 4).postInTable v).turn.checkPending else (s.advance 4).checkPending,
        s.tc, s.te, 0, none, none⟩ := by
  have hacc := Run.implicit_quiet (r := ⟨s.advance 4, s.tc, s.te, 0, none, none⟩)
    (State.noDataBreak_of_modes (s.untraced_iff.1 h).1) rfl rfl
  have hlt : v < 8 ↔ ¬8 ≤ v.toNat := by rw [BitVec.lt_def, Nat.not_le]; rfl
  simp only [Run.requestInterrupt, hacc, hlt]
  split_ifs
  · rfl
  · rfl

end

/-- The locked block that a load-and-lock reads: its words, and the state after it. -/
theorem Run.loadAndLock_aligned {r : Run} {a : Word} (h0 : a &&& 15 = 0) (h1 : 0x400 ≤ a.toNat)
    (m : ICacheMode) (n : Nat) : r.loadAndLock m a n =
      .ok { r with s := (r.s.readQuads a n).2.setCacheMode m (some ⟨a, (r.s.readQuads a n).1⟩) } :=
  if_pos ⟨(and_fifteen_eq_zero_iff a).1 h0, (inDataRam_eq_false_iff a).2 h1⟩

theorem Run.loadAndLock_misaligned {r : Run} {a : Word} (h : a &&& 15 ≠ 0 ∨ a.toNat < 0x400)
    (m : ICacheMode) (n : Nat) : r.loadAndLock m a n = .error (.refuse .lockAddress) := by
  refine if_neg fun hc => ?_
  obtain ⟨h0, h1⟩ := hc
  have hfar := (inDataRam_eq_false_iff a).1 h1
  exact h.elim (fun hne => hne ((and_fifteen_eq_zero_iff a).2 h0)) (fun hlt => by omega)

/-- Settles O48. -/
theorem systemControlRequests : Obligations.SystemControlRequests := by
  intro src1 src2 src3 s h hem hu msg f a u run cache loads
  have hrun := execSysctl_control hem hu
  have hchange {t : State} (hb : Run.control ⟨u, s.tc, s.te, 0, none, none⟩
      ((s.value (srcOperand src1) 0).extractLsb' 8 8) f a (s.value (src3Operand src3) 0) =
        .ok ⟨t, s.tc, s.te, 0, none, none⟩) : run = .next t := hrun.trans (runInstr_change h hb)
  have htrap (hb : ∀ r : Run, r.control ((s.value (srcOperand src1) 0).extractLsb' 8 8) f a
      (s.value (src3Operand src3) 0) = .error (.trap .invalidOperand)) :
        run = takeFault s s .invalidOperand (s.ip + 4) := hrun.trans (runInstr_trap (hb _))
  have hloads (hmsg : msg = 2) {m : ICacheMode} {n : Nat} (hb : ∀ r : Run, r.configureCache f a = r.loadAndLock m a n) :
      loads m (4 * n) := by
    refine ⟨fun h0 h1 => ?_, fun hbad => ?_⟩
    · refine ⟨_, ⟨a, (u.readQuads a n).1⟩, hchange ((Run.control_configure _ _ _ _ hmsg).trans ((hb _).trans
        (Run.loadAndLock_aligned h0 h1 m n))), ?_, rfl, u.readQuads_length a n, fun hq => ?_⟩
      · obtain ⟨mem, ts, hq, -⟩ := u.readQuads_eq a n
        rw [hq]
        rfl
      · have hquads : u.readQuads a n = (u.readWords a (4 * n), u) := State.readQuads_nil (s := u) hq a n
        rw [hquads]
        refine ⟨rfl, fun j hj => ?_⟩
        rw [State.readWords_eq_map, List.getElem?_map, List.getElem?_range hj]
        rfl
    · refine hrun.trans (runInstr_refused ?_)
      exact (Run.control_configure _ _ _ _ hmsg).trans ((hb _).trans (Run.loadAndLock_misaligned hbad m n))
  refine ⟨fun hmsg => ?_, fun hmsg => ?_, fun hmsg => ⟨fun hf => ?_, fun hf => ?_, fun hf => ?_, fun hf => ?_,
    fun h0 hf h4 h6 => ?_⟩, fun hmsg => ?_⟩
  · have hreq := (Run.control_request ⟨u, s.tc, s.te, 0, none, none⟩ f a
      (s.value (src3Operand src3) 0) hmsg).trans (congrArg Except.ok (Run.requestInterrupt_untraced h f))
    exact hchange hreq
  · exact hchange (Run.control_invalidate _ _ _ _ hmsg)
  · exact hchange ((Run.control_configure _ _ _ _ hmsg).trans (if_pos hf))
  · have hoff : ¬f.getLsbD 0 = true := by rw [hf]; decide
    exact hchange ((Run.control_configure _ _ _ _ hmsg).trans ((if_neg hoff).trans (if_pos hf)))
  · refine hloads (n := 64) hmsg fun r => ?_
    rw [hf]
    rfl
  · refine hloads (n := 32) hmsg fun r => ?_
    rw [hf]
    rfl
  · refine htrap fun r => (Run.control_configure r f a _ hmsg).trans ?_
    rw [Run.configureCache, if_neg (ne_true_of_eq_false h0), if_neg hf, if_neg h4, if_neg h6]
  · exact htrap fun r => Run.control_undefined r f a _ hmsg

/-- A group of the control table, loaded in the byte order of its region (R470). -/
theorem State.loadControlGroup_words (s : State) (g : Nat) : s.loadControlGroup g =
    s.loadGroup g (s.readWord (s.tables.ctrlTableBase + BitVec.ofNat 32 (16 * g + 4 * 0)))
      (s.readWord (s.tables.ctrlTableBase + BitVec.ofNat 32 (16 * g + 4 * 1)))
      (s.readWord (s.tables.ctrlTableBase + BitVec.ofNat 32 (16 * g + 4 * 2)))
      (s.readWord (s.tables.ctrlTableBase + BitVec.ofNat 32 (16 * g + 4 * 3))) := by
  have haddr (k : Nat) : s.tables.ctrlTableBase + BitVec.ofNat 32 (16 * g + k) =
      s.groupAddress g + BitVec.ofNat 32 k := by
    rw [State.groupAddress, BitVec.ofNat_add, BitVec.add_assoc]
  rw [haddr, haddr, haddr, haddr]
  exact congrArg (fun a => s.loadGroup g (s.readWord a) _ _ _) (BitVec.add_zero _).symm

/-- The groups of the memory regions. -/
theorem State.loadGroup_regions (s : State) {g : Nat} (h2 : 2 ≤ g) (h5 : g ≤ 5) (w : Nat → Word) :
    s.loadGroup g (w 0) (w 1) (w 2) (w 3) =
      { s with ctrl := { s.ctrl with mcon := setFour s.ctrl.mcon (4 * (g - 2)) (by omega) w } } := by
  match g, h2, h5 with
  | 2, _, _ => rfl
  | 3, _, _ => rfl
  | 4, _, _ => rfl
  | 5, _, _ => rfl

/-- Settles O49. -/
theorem systemControlLoads : Obligations.SystemControlLoads := by
  intro src1 src2 src3 s h hem hu msg g run w u
  have hm := (s.untraced_iff.1 h).1
  have hrun := execSysctl_control hem hu
  have htrap (hmsg : msg = 4) (hg : 6 < g) : run = takeFault s s .invalidOperand (s.ip + 4) := by
    refine hrun.trans (runInstr_trap ?_)
    exact (Run.control_load _ _ _ _ hmsg).trans (if_pos hg)
  have hload (hmsg : msg = 4) (hg : g ≤ 6) : run = .next (u.loadGroup g (w 0) (w 1) (w 2) (w 3)) := by
    have hacc := Run.implicit_quiet (r := ⟨u, s.tc, s.te, 0, none, none⟩)
      (State.noDataBreak_of_modes hm) rfl rfl (u.groupAddress g) 16
    refine hrun.trans (runInstr_change h ((Run.control_load _ _ _ _ hmsg).trans ((if_neg (not_lt.2 hg)).trans ?_)))
    refine congrArg Except.ok ((congrArg (Run.modify · _) hacc).trans ?_)
    exact congrArg (fun t => (⟨t, s.tc, s.te, 0, none, none⟩ : Run)) (u.loadControlGroup_words g)
  refine ⟨fun hmsg => ?_, htrap, fun hmsg hg => ?_, fun hmsg hg => ?_, fun hmsg h2 h5 => ?_, fun hmsg hg => ?_⟩
  · have hnext : run = .next (u.reinitialize (s.value (srcOperand src2) 0) (s.value (src3Operand src3) 0)) :=
      hrun.trans (runInstr_untraced h (r := ⟨u.reinitialize (s.value (srcOperand src2) 0)
        (s.value (src3Operand src3) 0), 0, s.te, 0, none, none⟩) (Run.control_reinitialize _ _ _ _ hmsg)
          BitVec.zero_and BitVec.zero_and rfl rfl)
    obtain ⟨-, -, -, -, -, -, -, hboot, -⟩ := u.initialize_cases .reinitialize
      (prcbBoot (s.value (srcOperand src2) 0) (s.value (src3Operand src3) 0) s.draws)
    obtain ⟨-, -, himsk, hipnd, hdma⟩ := u.initialize_devices
      (prcbBoot (s.value (srcOperand src2) 0) (s.value (src3Operand src3) 0) s.draws)
    exact ⟨_, hnext, _, rfl, rfl, prcbBoot_ok _ _ _, u.initialize_initialized .reinitialize _, himsk, hipnd, hdma,
      hboot⟩
  · rw [hload hmsg (by omega), hg]
    rfl
  · rw [hload hmsg (by omega), hg]
    rfl
  · rw [hload hmsg (by omega)]
    have hregions : u.loadGroup g (w 0) (w 1) (w 2) (w 3) =
        { u with ctrl := { s.ctrl with mcon := setFour s.ctrl.mcon (4 * (g - 2)) (by omega) w } } :=
      u.loadGroup_regions h2 h5 w
    refine ⟨_, congrArg _ hregions, fun k => ?_⟩
    rw [get_setFour, show 4 * (g - 1) = 4 * (g - 2) + 4 by omega]
  · rw [hload hmsg (by omega), hg]
    rfl

end Sys2Proof.Machine
end

section
/-! The DMA instructions (`47_dma.md` R482, R483): O50. -/

namespace Sys2Proof.Machine

/-! The operands of `sdma`. -/

theorem State.canUse_src3 (s : State) (src3 : Src3) : s.canUse (src3Operand src3).one = true := by
  cases src3 with
  | reg n => exact beq_iff_eq.2 (Nat.mod_one n.toNat)
  | lit n => rfl

theorem State.canUseAll_append (s : State) {u v w : Use} (hu : s.canUseAll [u, v] = true)
    (hw : s.canUse w = true) : s.canUseAll [u, v, w] = true := by
  simp only [State.canUseAll, List.all_cons, List.all_nil, Bool.and_true] at hu ⊢
  rw [hw, Bool.and_true]
  exact hu

theorem Use.invalid_append {u v w : Use} (hw : w.invalid = true) : [u, v, w].any Use.invalid = true := by
  simp [hw]

/-! The status of the channels. -/

section
variable {s : State}

/-- The blocks of two channels lie apart. -/
theorem dmaBlock_apart {c d : Fin 4} (h : c ≠ d) {n : Nat} (hn : n < 32) :
    32 ≤ (dmaBlock d + BitVec.ofNat 32 n - dmaBlock c).toNat := by
  have hne : c.val ≠ d.val := fun he => h (Fin.ext he)
  have hc := c.isLt
  have hd := d.isLt
  simp only [dmaBlock, Config.dmaRamBase]
  bv_omega

theorem State.readByte_writeStatus_outside (hw : s.mem.wf = true) {c : Fin 4} {x : Word}
    (hx : 32 ≤ (x - dmaBlock c).toNat) : (s.writeStatus c).readByte x = s.readByte x :=
  State.readByte_writeWords_outside hw (by rw [Vector.length_toList]; exact hx)

theorem State.readWord_writeStatus (hw : s.mem.wf = true) (c d : Fin 4) (k : Fin 8) :
    (s.writeStatus c).readWord (dmaBlock d + BitVec.ofNat 32 (4 * k.val)) =
      if c = d then (s.dma.status.get d).get k
      else s.readWord (dmaBlock d + BitVec.ofNat 32 (4 * k.val)) := by
  have hk := k.isLt
  split
  · next hcd =>
    subst hcd
    exact (State.readWord_writeWords_inside hw (by rw [Vector.length_toList]; decide)
      (by rw [Vector.length_toList]; exact hk)).trans (Vector.getElem_toList _)
  · next hcd =>
    refine State.readWord_of_bytes (State.writeWords_ctrl s _ _) fun j hj => ?_
    refine State.readByte_writeStatus_outside hw ?_
    rw [BitVec.add_assoc, ← BitVec.ofNat_add]
    exact dmaBlock_apart hcd (by omega)

/-- Writing a status changes memory only. -/
theorem State.writeStatus_eq (s : State) (c : Fin 4) :
    ∃ m, s.writeStatus c = { s with mem := m } ∧ (s.mem.wf = true → m.wf = true) := by
  obtain ⟨m, h⟩ := s.writeWords_eq (dmaBlock c) (s.dma.status.get c).toList
  refine ⟨m, h, fun hw => ?_⟩
  have hwf := State.writeWords_wf hw (dmaBlock c) (s.dma.status.get c).toList
  rwa [h] at hwf

theorem State.writeStatus_wf (hw : s.mem.wf = true) (c : Fin 4) : (s.writeStatus c).mem.wf = true :=
  State.writeWords_wf hw _ _

theorem State.writeStatus_dma (s : State) (c : Fin 4) : (s.writeStatus c).dma = s.dma :=
  State.writeWords_dma s _ _

/-- The status of every channel. -/
def State.writeStatuses (s : State) : State :=
  (((s.writeStatus 0).writeStatus 1).writeStatus 2).writeStatus 3

theorem State.writeStatuses_eq (s : State) : ∃ m, s.writeStatuses = { s with mem := m } := by
  obtain ⟨m0, h0, -⟩ := s.writeStatus_eq 0
  obtain ⟨m1, h1, -⟩ := (s.writeStatus 0).writeStatus_eq 1
  obtain ⟨m2, h2, -⟩ := ((s.writeStatus 0).writeStatus 1).writeStatus_eq 2
  obtain ⟨m3, h3, -⟩ := (((s.writeStatus 0).writeStatus 1).writeStatus 2).writeStatus_eq 3
  exact ⟨m3, by rw [State.writeStatuses, h3, h2, h1, h0]⟩

theorem State.writeStatuses_reads (hw : s.mem.wf = true) :
    (∀ (d : Fin 4) (k : Fin 8), s.writeStatuses.readWord (dmaBlock d + BitVec.ofNat 32 (4 * k.val)) =
      (s.dma.status.get d).get k) ∧
    (∀ x : Word, (∀ d : Fin 4, 32 ≤ (x - dmaBlock d).toNat) → s.writeStatuses.readByte x = s.readByte x) := by
  have hw0 := State.writeStatus_wf hw 0
  have hw1 := State.writeStatus_wf hw0 1
  have hw2 := State.writeStatus_wf hw1 2
  refine ⟨fun d k => ?_, fun x hx => ?_⟩ <;> rw [State.writeStatuses]
  · have hall : ∀ d : Fin 4, d = 0 ∨ d = 1 ∨ d = 2 ∨ d = 3 := by decide
    rw [State.readWord_writeStatus hw2, State.readWord_writeStatus hw1, State.readWord_writeStatus hw0,
      State.readWord_writeStatus hw]
    simp only [State.writeStatus_dma]
    rcases hall d with rfl | rfl | rfl | rfl <;> rfl
  · rw [State.readByte_writeStatus_outside hw2 (hx 3), State.readByte_writeStatus_outside hw1 (hx 2),
      State.readByte_writeStatus_outside hw0 (hx 1), State.readByte_writeStatus_outside hw (hx 0)]

end

/-- Settles O50. -/
theorem dmaResults : Obligations.DmaResults := by
  intro src1 src2 src3 s h hem c w o words m
  have hsup : ¬s.em = false := ne_false_of_eq_true hem
  refine ⟨fun hu => ⟨fun hthird => ?_, fun hch hreg => ?_⟩, fun hw => ?_⟩
  · have huse : s.canUseAll [(srcOperand src1).one, (srcOperand src2).one, channelUse src3 w] = true := by
      refine s.canUseAll_append hu ?_
      rw [channelUse]
      by_cases hch : chaining w = true
      · rw [if_pos hch]
        exact s.canUse_src3 src3
      · obtain ⟨n, rfl, hn⟩ := hthird.resolve_left hch
        rw [if_neg hch]
        exact beq_iff_eq.2 hn
    have hwords : s.channelWords src3 w = words := by
      simp only [State.channelWords, words]
      split <;> rfl
    refine ⟨fun hidle => ?_, fun hbusy => ?_⟩ <;> unfold exec <;> refine (if_neg hsup).trans ?_
    · simp only [show s.dma.started.get ((s.value (srcOperand src1) 0).extractLsb' 0 2).toFin = false from hidle]
      refine (runChecked_modify h huse 4 fun t => t.startChannel c w (s.channelWords src3 w)).trans ?_
      rw [hwords, State.startChannel]
      simp only [State.writeWords_dma]
      rfl
    · rw [runChecked_of_canUse huse]
      exact runInstr_refused (if_pos hbusy)
  · have hbad : (channelUse src3 w).invalid = true := by
      rw [channelUse, if_neg (ne_true_of_eq_false hch)]
      cases src3 with
      | reg n => exact bne_iff_ne.2 (hreg n rfl)
      | lit n => rfl
    unfold exec
    refine (if_neg hsup).trans (runChecked_of_fault (State.operandFault_invalid (.inl hem)
      (Use.invalid_append hbad)) _ _)
  · have hrun : exec .udma s = .next (s.advance 4).writeStatuses := by
      unfold exec
      exact (if_neg hsup).trans (runInstr_change h rfl)
    obtain ⟨hwords, hbytes⟩ := State.writeStatuses_reads (s := s.advance 4) hw
    obtain ⟨mem, hm⟩ := (s.advance 4).writeStatuses_eq
    refine ⟨_, hrun, hwords, hbytes, ?_, ?_, ?_⟩
    · rw [hm]
      exact (s.keepsOutside_refl (.lit 0) 0).change (s.ip + 4) s.ac mem s.turns s.draws s.icache.fetchingLocked
    · rw [hm]; rfl
    · rw [hm]; rfl

end Sys2Proof.Machine
end
